-- ==== Sys2Proof/Word.lean ====
section
/-! DEFINITION. The widths the framer's values have (spec 10_state.md, 20_memory.md). -/

namespace Sys2Proof

/-- An 8-bit value: a header, instruction, data, CRC or ACK byte (10 R13 to R17). -/
abbrev Byte := BitVec 8

/-- A 16-bit value: the CRC register (10 R15). -/
abbrev Word := BitVec 16

/-- One sample of the line: true is the high level 1, false the low level 0 (20 R40). -/
abbrev Sample := Bool

end Sys2Proof
end

