-- ==== Sys2Proof/Config.lean ====
section
/-! DEFINITION. The record of implementation parameters (spec 00_scope.md R5, 93 U1). Its values stand in
Sys2Proof/Machine/Params.lean. -/

namespace Sys2Proof

/-- The three protocol versions (00 R2): "A model keeps three constructors for the version and matches on
all three" (30 R60). -/
inductive Version where
  | v1
  | v1Extended
  | v2
deriving DecidableEq, Repr

/-- One entry for each version: V1 and V1Extended stay apart even where they are equal (93 U1, 90 C6). -/
structure PerVersion (α : Type) where
  v1 : α
  v1Extended : α
  v2 : α
deriving DecidableEq, Repr

/-- The entry of one version. -/
def PerVersion.get {α : Type} (t : PerVersion α) : Version → α
  | .v1 => t.v1
  | .v1Extended => t.v1Extended
  | .v2 => t.v2

/-- The parameters of 00 R5, "each as a field of its configuration record". `SPB`, `ACK_VALUE` and
`N_SAMPLES` are run-time values and stand in State, as does the record itself: a model "quantifies over" the
parameters (10 R29), and the machine's step has no argument but its state (log 18). -/
structure Config where
  /-- The code of each version in `VERSION` and in `H[17:16]`; a code that no version has is reserved. -/
  versionCode : PerVersion (BitVec 2)
  /-- `HALF` = `SPB div halfDivisor`. -/
  halfDivisor : Nat
  /-- `NODE_ACK` size: the entries of the per-node ACK table. -/
  nodeAckSize : Nat
  /-- `MIN_BRK[version]`, minimum break-field length in bits. -/
  minBrk : PerVersion Nat
  /-- `X_EXTRA[version]`, extra low bit periods of the break reinterpretation. -/
  xExtra : PerVersion Nat
  /-- Data bit order in a byte frame: true is least significant bit first (30 R60). -/
  lsbFirst : PerVersion Bool
  /-- The CRC pairing choice: true absorbs bytes in pairs, second then first (44 R152, 93 U1). -/
  crcPairs : PerVersion Bool
  /-- `CRC_RX_LOW_FIRST[version]`: CrcByte1 is the low-order half of the received CRC. -/
  crcRxLowFirst : PerVersion Bool
  /-- `CRC_INIT`. -/
  crcInit : Word
  /-- `CRC_POLY`. -/
  crcPoly : Word
  /-- `ACK_FIXED`, the accepted ACK byte of V1 and V1Extended. -/
  ackFixed : Byte
  /-- Reset value of `ACK_VALUE`. -/
  ackValueReset : Byte
  /-- `DIR_ACK_LEVEL`, "per version if a reader needs it" (92 D13). -/
  dirAckLevel : PerVersion Bool
  /-- `POS_W`: the width of `SPB` (10 R22), of the position fields of an event word (30 R72) and of the
  positions an operand record may hold (40 R90, 41 R100). -/
  posW : Nat
  /-- `V2_INSTR_BIT` of id2. -/
  v2InstrBit : Nat
  /-- `V2_LEN_LSB` of id2, a 3-bit field. -/
  v2LenLsb : Nat
  /-- `V2_FSEL_BIT` of id2. -/
  v2FselBit : Nat
  /-- `V2_DIR_BIT` of id2. -/
  v2DirBit : Nat
  /-- `V1_FSEL_BIT` of id1. -/
  v1FselBit : Nat
  /-- `V1_DIR_BIT` of id1. -/
  v1DirBit : Nat
  /-- `V1_F3_LSB` of id2, a 3-bit field. -/
  v1F3Lsb : Nat
  /-- `V1_F6_LSB` of id2, a 6-bit field. -/
  v1F6Lsb : Nat
deriving DecidableEq, Repr

/-- No two versions have the same code, as in 00 R5. -/
def Config.codesDistinct (p : Config) : Prop :=
  p.versionCode.v1 ≠ p.versionCode.v1Extended ∧ p.versionCode.v1 ≠ p.versionCode.v2 ∧
    p.versionCode.v1Extended ≠ p.versionCode.v2

/-- How far past its value before the step the cursor stands when a stream has ended inside a wire
operation: "`any value` for `pos` subject to `pos >=` its value before the step" (93 U3). A free value: the
`n`-th exhaustion takes the `n`-th (log 8, DESIGN CHOICE of its form, safe). -/
opaque Config.exhaustedAdvance : Nat → Nat

end Sys2Proof
end

