-- ==== Sys2Proof/Machine/Operands.lean ====
section
/-! DEFINITION. The version a code names (spec 10_state.md R21) and the operand fields of the header bytes
(30_encoding.md R64 to R69), at the positions the parameters give. All fields are unsigned and taken from the
deserialized byte value. -/

namespace Sys2Proof

/-- The version with this code; a code that no version has is reserved (10 R21, 30 R74). -/
def Version.ofCode (p : Config) (w : BitVec 2) : Option Version :=
  if w = p.versionCode.v1 then some .v1
  else if w = p.versionCode.v1Extended then some .v1Extended
  else if w = p.versionCode.v2 then some .v2
  else none

namespace Machine

/-- `popcount(v)`: the number of bits of `v` that are 1 (00 R7). -/
def popcount {w : Nat} (v : BitVec w) : Nat := go w
where
  go : Nat → Nat
    | 0 => 0
    | n + 1 => go n + (v.getLsbD n).toNat

/-- Node address (30 R65): the upper six bits of id1, zero-extended, in V1 and V1Extended; id1 in V2. -/
def nodeAddress (v : Version) (id1 : Byte) : Byte :=
  match v with
  | .v1 => (id1.extractLsb' 2 6).zeroExtend 8
  | .v1Extended => (id1.extractLsb' 2 6).zeroExtend 8
  | .v2 => id1

/-- Function-select (30 R66). -/
def functionSelect (p : Config) (v : Version) (id1 id2 : Byte) : Bool :=
  match v with
  | .v1 => id1.getLsbD p.v1FselBit
  | .v1Extended => id1.getLsbD p.v1FselBit
  | .v2 => id2.getLsbD p.v2FselBit

/-- The V2 length code, three bits of id2 (30 R67). -/
def lengthCode (p : Config) (id2 : Byte) : BitVec 3 := id2.extractLsb' p.v2LenLsb 3

/-- The V1 and V1Extended 3-bit field of id2 (30 R67). -/
def field3 (p : Config) (id2 : Byte) : BitVec 3 := id2.extractLsb' p.v1F3Lsb 3

/-- The V1 and V1Extended 6-bit field of id2 (30 R67). -/
def field6 (p : Config) (id2 : Byte) : BitVec 6 := id2.extractLsb' p.v1F6Lsb 6

/-- Direction bit (30 R68). -/
def directionBit (p : Config) (v : Version) (id1 id2 : Byte) : Bool :=
  match v with
  | .v1 => id1.getLsbD p.v1DirBit
  | .v1Extended => id1.getLsbD p.v1DirBit
  | .v2 => id2.getLsbD p.v2DirBit

/-- Instruction bit (30 R69): V2 only; the other versions have none. -/
def instructionBit (p : Config) (v : Version) (id2 : Byte) : Bool :=
  match v with
  | .v1 => false
  | .v1Extended => false
  | .v2 => id2.getLsbD p.v2InstrBit

end Machine

end Sys2Proof
end

