-- ==== Sys2Proof/Machine/Params.lean ====
section
/-! DEFINITION. The values of the implementation parameters (spec 00_scope.md R5; log 18). -/

namespace Sys2Proof.Machine

/-- The parameter values of 00 R5. Those marked *source* there are the source's; the others, among them the
bit positions, the CRC byte order of V1 and V1Extended and the V1 direction level (D11 to D14), are the
spec's decisions (log 18). -/
def cfg : Config where
  versionCode := { v1 := 0, v1Extended := 1, v2 := 2 }
  halfDivisor := 2
  nodeAckSize := 256
  minBrk := { v1 := 13, v1Extended := 13, v2 := 11 }
  xExtra := { v1 := 3, v1Extended := 3, v2 := 1 }
  lsbFirst := { v1 := false, v1Extended := false, v2 := true }
  crcPairs := { v1 := false, v1Extended := false, v2 := true }
  crcRxLowFirst := { v1 := false, v1Extended := false, v2 := true }
  crcInit := 0xFFFF
  crcPoly := 0x1021
  ackFixed := 0x7E
  ackValueReset := 0x7E
  dirAckLevel := { v1 := false, v1Extended := false, v2 := false }
  posW := 64
  v2InstrBit := 0
  v2LenLsb := 1
  v2FselBit := 4
  v2DirBit := 5
  v1FselBit := 0
  v1DirBit := 1
  v1F3Lsb := 5
  v1F6Lsb := 2

end Sys2Proof.Machine
end

