-- ==== Sys2Proof/Syntax.lean ====
section
/-! DEFINITION. The operations of the framer (spec/opcode_table.json, 30_encoding.md R76), one constructor
each, with the operands their rules name; and the records those operands are. -/

namespace Sys2Proof

/-- FrameState (10 R11, 30 R70). Codes 10 to 15 are reserved: "a model's state type has no such value"
(30 R74; log 10). -/
inductive FrameState where
  | noFrame
  | headerBreak
  | headerId1
  | headerId2
  | instructionByte1
  | instructionByte2
  | dataByte
  | crcByte1
  | crcByte2
  | ackByte
deriving DecidableEq, Repr

/-- The record `Break{value, start, end, bits, toggling, ferr}` of BRK_SCAN (40 R90). -/
structure BreakRec where
  value : Byte
  startPos : Nat
  endPos : Nat
  bits : Nat
  toggling : Bool
  ferr : Bool
deriving DecidableEq, Repr

/-- The record `Byte{value, start, end, ferr}` of BYTE_READ (41 R100). -/
structure ByteRec where
  value : Byte
  startPos : Nat
  endPos : Nat
  ferr : Bool
deriving DecidableEq, Repr

/-- The record `BreakField{start, end, bits, ferr}` of BYTE_READ (41 R100). -/
structure BreakFieldRec where
  startPos : Nat
  endPos : Nat
  bits : Nat
  ferr : Bool
deriving DecidableEq, Repr

/-- The result of BYTE_READ, "a tagged result variant" (41 R100, R101). -/
inductive ReadResult where
  | byte (r : ByteRec)
  | breakField (r : BreakFieldRec)
deriving DecidableEq, Repr

/-- What the wire side of one decode-unit step hands to the state step (42 R110). -/
inductive WireUnit where
  | brk (u : BreakRec)
  | byte (r : ByteRec)
  | breakField (r : BreakFieldRec)
deriving DecidableEq, Repr

/-- The operations of the framer, one constructor for each row of spec/opcode_table.json. The operands of
the HDR rows are the parts of the header word `H`: version code, id1 and id2 for the V2 LEN rows, as for LEN,
and id1 and id2 for the others, whose version the row names. `WellFormed` holds their fields to the row. -/
inductive Instr where
  /-- `ITER`, one decode-unit step (42 R110). -/
  | iter
  /-- `BRK_SCAN` (40 R90). -/
  | brkScan
  /-- `BYTE_READ` (41 R100). -/
  | byteRead
  /-- `ST.NOFRAME(u)` (42 R111). -/
  | stNoframe (u : BreakRec)
  /-- `ST.HEADERBREAK(u)` (42 R112). -/
  | stHeaderbreak (u : BreakRec)
  /-- `ST.HEADERID1(r)` (42 R113). -/
  | stHeaderid1 (r : ByteRec)
  /-- `ST.HEADERID2(r)` (42 R114). -/
  | stHeaderid2 (r : ByteRec)
  /-- `ST.INSTR1(r)` (42 R115). -/
  | stInstr1 (r : ByteRec)
  /-- `ST.INSTR2(r)` (42 R116). -/
  | stInstr2 (r : ByteRec)
  /-- `ST.DATA(r)` (42 R117). -/
  | stData (r : ByteRec)
  /-- `ST.CRC1(r)` (42 R118). -/
  | stCrc1 (r : ByteRec)
  /-- `ST.CRC2(r)` (42 R119). -/
  | stCrc2 (r : ByteRec)
  /-- `ST.ACK(r)` (42 R120). -/
  | stAck (r : ByteRec)
  /-- `MISSING_BYTE(r)` (42 R126). -/
  | missingByte (r : BreakFieldRec)
  /-- `SESSION.START` (42 R127). -/
  | sessionStart
  /-- `SESSION.CANCEL` (42 R128). -/
  | sessionCancel
  /-- `SESSION.EXHAUST` (42 R129). -/
  | sessionExhaust
  /-- `LEN(version, id1, id2)` (43 R140). -/
  | len (version : BitVec 2) (id1 id2 : Byte)
  /-- `LEN.V2.F0.C0` (43 R141): function-select 0, length code 0. -/
  | lenV2F0C0 (version : BitVec 2) (id1 id2 : Byte)
  /-- `LEN.V2.F0.C1` (43 R141): function-select 0, length code 1. -/
  | lenV2F0C1 (version : BitVec 2) (id1 id2 : Byte)
  /-- `LEN.V2.F0.C2` (43 R141): function-select 0, length code 2. -/
  | lenV2F0C2 (version : BitVec 2) (id1 id2 : Byte)
  /-- `LEN.V2.F0.C3` (43 R141): function-select 0, length code 3. -/
  | lenV2F0C3 (version : BitVec 2) (id1 id2 : Byte)
  /-- `LEN.V2.F0.C4` (43 R141): function-select 0, length code 4. -/
  | lenV2F0C4 (version : BitVec 2) (id1 id2 : Byte)
  /-- `LEN.V2.F0.C5` (43 R141): function-select 0, length code 5. -/
  | lenV2F0C5 (version : BitVec 2) (id1 id2 : Byte)
  /-- `LEN.V2.F0.C6` (43 R141): function-select 0, length code 6. -/
  | lenV2F0C6 (version : BitVec 2) (id1 id2 : Byte)
  /-- `LEN.V2.F0.C7` (43 R141): function-select 0, length code 7. -/
  | lenV2F0C7 (version : BitVec 2) (id1 id2 : Byte)
  /-- `LEN.V2.F1.C0` (43 R141): function-select 1, length code 0. -/
  | lenV2F1C0 (version : BitVec 2) (id1 id2 : Byte)
  /-- `LEN.V2.F1.C1` (43 R141): function-select 1, length code 1. -/
  | lenV2F1C1 (version : BitVec 2) (id1 id2 : Byte)
  /-- `LEN.V2.F1.C2` (43 R141): function-select 1, length code 2. -/
  | lenV2F1C2 (version : BitVec 2) (id1 id2 : Byte)
  /-- `LEN.V2.F1.C3` (43 R141): function-select 1, length code 3. -/
  | lenV2F1C3 (version : BitVec 2) (id1 id2 : Byte)
  /-- `LEN.V2.F1.C4` (43 R141): function-select 1, length code 4. -/
  | lenV2F1C4 (version : BitVec 2) (id1 id2 : Byte)
  /-- `LEN.V2.F1.C5` (43 R141): function-select 1, length code 5. -/
  | lenV2F1C5 (version : BitVec 2) (id1 id2 : Byte)
  /-- `LEN.V2.F1.C6` (43 R141): function-select 1, length code 6. -/
  | lenV2F1C6 (version : BitVec 2) (id1 id2 : Byte)
  /-- `LEN.V2.F1.C7` (43 R141): function-select 1, length code 7. -/
  | lenV2F1C7 (version : BitVec 2) (id1 id2 : Byte)
  /-- `LEN.V1.F0` (43 R142): function-select 0. -/
  | lenV1F0 (id1 id2 : Byte)
  /-- `LEN.V1X.F0` (43 R142): function-select 0. -/
  | lenV1xF0 (id1 id2 : Byte)
  /-- `LEN.V1.F1` (43 R142): function-select 1. -/
  | lenV1F1 (id1 id2 : Byte)
  /-- `LEN.V1X.F1` (43 R143): function-select 1. -/
  | lenV1xF1 (id1 id2 : Byte)
  /-- `INSTR.V2` (42 R114): the instruction bit of id2 set. -/
  | instrV2 (id1 id2 : Byte)
  /-- `CRC.RESET` (44 R150). -/
  | crcReset
  /-- `CRC.ADD(c, b)` (44 R151). -/
  | crcAdd (c : Word) (b : Byte)
  /-- `CRC.ABSORB.V1(b)` (44 R152). -/
  | crcAbsorbV1 (b : Byte)
  /-- `CRC.ABSORB.V2(b)` (44 R152). -/
  | crcAbsorbV2 (b : Byte)
  /-- `CRC.RESULT` (44 R153). -/
  | crcResult
  /-- `CRC.RXCHECK` with the byte of CrcByte2; the byte of CrcByte1 is the latch `crc_b1` (44 R154). -/
  | crcRxcheck (b2 : Byte)
  /-- `ACKPOL.V1(id1, id2)` (45 R160). -/
  | ackpolV1 (id1 id2 : Byte)
  /-- `ACKPOL.V1X(id1, id2)` (45 R160). -/
  | ackpolV1x (id1 id2 : Byte)
  /-- `ACKPOL.V2(id1, id2)` (45 R160). -/
  | ackpolV2 (id1 id2 : Byte)
  /-- `ACK_ENABLED(node)` (45 R161). -/
  | ackEnabled (node : Byte)
deriving DecidableEq, Repr

end Sys2Proof
end

