-- ==== Sys2Proof/WellFormed.lean ====
section
/-! DEFINITION. When an operation's operands are ones the spec allows under given parameters: the record fields
fit their widths (40 R90, 41 R100: `POS_W` bits), a version operand is the code of a version (43 R140), and the
header bytes of an HDR row have the row's fields (43 R141 to R143, 42 R114). The other operands are of their
exact width by type. -/

namespace Sys2Proof

open Sys2Proof.Machine (functionSelect lengthCode instructionBit)

/-- A position fits `POS_W` bits (10 R12, 93 U8). -/
def posFits (p : Config) (n : Nat) : Bool := decide (n < 2 ^ p.posW)

/-- Every position of a Break record fits. -/
def BreakRec.fits (p : Config) (u : BreakRec) : Bool :=
  posFits p u.startPos && posFits p u.endPos && posFits p u.bits

/-- Every position of a Byte record fits. -/
def ByteRec.fits (p : Config) (r : ByteRec) : Bool :=
  posFits p r.startPos && posFits p r.endPos

/-- Every position of a BreakField record fits. -/
def BreakFieldRec.fits (p : Config) (r : BreakFieldRec) : Bool :=
  posFits p r.startPos && posFits p r.endPos && posFits p r.bits

/-- The header is one of the row `LEN.V2.F<f>.C<c>` (43 R141). -/
def isRowV2 (p : Config) (f : Bool) (c : BitVec 3) (version : BitVec 2) (id1 id2 : Byte) : Bool :=
  Version.ofCode p version == some .v2 && functionSelect p .v2 id1 id2 == f && lengthCode p id2 == c

/-- The well-formed operations. -/
def Instr.wellFormed (p : Config) : Instr → Bool
  | .stNoframe u => u.fits p
  | .stHeaderbreak u => u.fits p
  | .stHeaderid1 r => r.fits p
  | .stHeaderid2 r => r.fits p
  | .stInstr1 r => r.fits p
  | .stInstr2 r => r.fits p
  | .stData r => r.fits p
  | .stCrc1 r => r.fits p
  | .stCrc2 r => r.fits p
  | .stAck r => r.fits p
  | .missingByte r => r.fits p
  | .len version _ _ => (Version.ofCode p version).isSome
  | .iter => true
  | .brkScan => true
  | .byteRead => true
  | .sessionStart => true
  | .sessionCancel => true
  | .sessionExhaust => true
  | .lenV2F0C0 version id1 id2 => isRowV2 p false 0 version id1 id2
  | .lenV2F0C1 version id1 id2 => isRowV2 p false 1 version id1 id2
  | .lenV2F0C2 version id1 id2 => isRowV2 p false 2 version id1 id2
  | .lenV2F0C3 version id1 id2 => isRowV2 p false 3 version id1 id2
  | .lenV2F0C4 version id1 id2 => isRowV2 p false 4 version id1 id2
  | .lenV2F0C5 version id1 id2 => isRowV2 p false 5 version id1 id2
  | .lenV2F0C6 version id1 id2 => isRowV2 p false 6 version id1 id2
  | .lenV2F0C7 version id1 id2 => isRowV2 p false 7 version id1 id2
  | .lenV2F1C0 version id1 id2 => isRowV2 p true 0 version id1 id2
  | .lenV2F1C1 version id1 id2 => isRowV2 p true 1 version id1 id2
  | .lenV2F1C2 version id1 id2 => isRowV2 p true 2 version id1 id2
  | .lenV2F1C3 version id1 id2 => isRowV2 p true 3 version id1 id2
  | .lenV2F1C4 version id1 id2 => isRowV2 p true 4 version id1 id2
  | .lenV2F1C5 version id1 id2 => isRowV2 p true 5 version id1 id2
  | .lenV2F1C6 version id1 id2 => isRowV2 p true 6 version id1 id2
  | .lenV2F1C7 version id1 id2 => isRowV2 p true 7 version id1 id2
  | .lenV1F0 id1 id2 => functionSelect p .v1 id1 id2 == false
  | .lenV1xF0 id1 id2 => functionSelect p .v1Extended id1 id2 == false
  | .lenV1F1 id1 id2 => functionSelect p .v1 id1 id2 == true
  | .lenV1xF1 id1 id2 => functionSelect p .v1Extended id1 id2 == true
  | .instrV2 _ id2 => instructionBit p .v2 id2
  | .crcReset => true
  | .crcAdd _ _ => true
  | .crcAbsorbV1 _ => true
  | .crcAbsorbV2 _ => true
  | .crcResult => true
  | .crcRxcheck _ => true
  | .ackpolV1 _ _ => true
  | .ackpolV1x _ _ => true
  | .ackpolV2 _ _ => true
  | .ackEnabled _ => true

end Sys2Proof
end

