-- ==== Sys2Proof/Decode.lean ====
section
/-! DEFINITION. The words that select an operation (spec 30_encoding.md R62, R70, R76 and the match and mask
columns of spec/opcode_table.json): their decoder, total and rejecting by name, and after it their encoder. -/

namespace Sys2Proof

open Sys2Proof.Machine (cfg functionSelect lengthCode instructionBit)

/-! Codes of the FrameStates. -/

/-- FrameState codes (30 R70). -/
def FrameState.code : FrameState → BitVec 4
  | .noFrame => 0
  | .headerBreak => 1
  | .headerId1 => 2
  | .headerId2 => 3
  | .instructionByte1 => 4
  | .instructionByte2 => 5
  | .dataByte => 6
  | .crcByte1 => 7
  | .crcByte2 => 8
  | .ackByte => 9

/-- The FrameState with this code; 10 to 15 are reserved (30 R70, R74). -/
def FrameState.ofCode (w : BitVec 4) : Option FrameState :=
  match w.toNat with
  | 0 => some .noFrame
  | 1 => some .headerBreak
  | 2 => some .headerId1
  | 3 => some .headerId2
  | 4 => some .instructionByte1
  | 5 => some .instructionByte2
  | 6 => some .dataByte
  | 7 => some .crcByte1
  | 8 => some .crcByte2
  | 9 => some .ackByte
  | _ => none

/-! The header word. -/

/-- `H = VERSION[1:0] ++ id1[7:0] ++ id2[7:0]` (30 R76). -/
def headerWord (version : BitVec 2) (id1 id2 : Byte) : BitVec 18 := version ++ id1 ++ id2

/-! The ten-bit byte frame `0abcdefgh1`, leftmost symbol first in time (30 R62). -/

/-- The bits of a byte in the opposite order. -/
def reverseByte (b : Byte) : Byte :=
  BitVec.ofBool (b.getLsbD 0) ++ BitVec.ofBool (b.getLsbD 1) ++ BitVec.ofBool (b.getLsbD 2) ++
    BitVec.ofBool (b.getLsbD 3) ++ BitVec.ofBool (b.getLsbD 4) ++ BitVec.ofBool (b.getLsbD 5) ++
    BitVec.ofBool (b.getLsbD 6) ++ BitVec.ofBool (b.getLsbD 7)

/-- The data symbols `abcdefgh` of a byte, `a` first in time (30 R62, 20 R56). -/
def wireOrder (p : Config) (v : Version) (b : Byte) : Byte :=
  if p.lsbFirst.get v then reverseByte b else b

/-- The byte frame of a value: start bit 0, the data symbols, stop bit 1 (30 R62). -/
def frameOf (p : Config) (v : Version) (b : Byte) : BitVec 10 := 0#1 ++ wireOrder p v b ++ 1#1

/-- The value of a byte frame in a version's bit order (30 R62). -/
def frameValue (p : Config) (v : Version) (f : BitVec 10) : Byte := wireOrder p v (f.extractLsb' 1 8)

/-! What selects an operation. -/

/-- The words the table gives, with what the framer looks at beside them.
`state`: the `state` register and the unit the wire side delivered (42 R110).
`header`: the header word, as the length decoder reads it (43 R140).
`instrBit`: the header word, as the instruction-byte branch reads it (42 R114).
`frame`: a byte frame on the wire (30 R62). -/
inductive Selector where
  | state (w : BitVec 4) (u : WireUnit)
  | header (h : BitVec 18)
  | instrBit (h : BitVec 18)
  | frame (f : BitVec 10)
deriving DecidableEq, Repr

/-- Why a selector is rejected. -/
inductive DecodeError where
  /-- A state code 10 to 15 (30 R74). -/
  | reservedState (w : BitVec 4)
  /-- A header word whose version code is reserved (30 R74). -/
  | reservedVersion
  /-- The header word announces no instruction bytes (30 R69). -/
  | noInstructionBit
  /-- The ten symbols have a high start bit or a low stop bit, so they are not the row's pattern (30 R62).
  DESIGN CHOICE of the table-word decoder (log 14): on the wire such a frame is never refused (30 R74). -/
  | notAFrame
  /-- A break where the state consumes a byte, or a byte where it consumes a break (30 R70). -/
  | unitMismatch
deriving DecidableEq, Repr

/-- The state step of a FrameState applied to a unit; a `BreakField` in a byte state is MISSING_BYTE
(42 R110). -/
def decodeUnit (st : FrameState) (u : WireUnit) : Except DecodeError Instr :=
  match u with
  | .brk b =>
    match st with
    | .noFrame => .ok (.stNoframe b)
    | .headerBreak => .ok (.stHeaderbreak b)
    | .headerId1 | .headerId2 | .instructionByte1 | .instructionByte2 | .dataByte
    | .crcByte1 | .crcByte2 | .ackByte => .error .unitMismatch
  | .byte r =>
    match st with
    | .noFrame | .headerBreak => .error .unitMismatch
    | .headerId1 => .ok (.stHeaderid1 r)
    | .headerId2 => .ok (.stHeaderid2 r)
    | .instructionByte1 => .ok (.stInstr1 r)
    | .instructionByte2 => .ok (.stInstr2 r)
    | .dataByte => .ok (.stData r)
    | .crcByte1 => .ok (.stCrc1 r)
    | .crcByte2 => .ok (.stCrc2 r)
    | .ackByte => .ok (.stAck r)
  | .breakField f =>
    match st with
    | .noFrame | .headerBreak => .error .unitMismatch
    | .headerId1 | .headerId2 | .instructionByte1 | .instructionByte2 | .dataByte
    | .crcByte1 | .crcByte2 | .ackByte => .ok (.missingByte f)

/-- The STATE rows of the table: the 4-bit word is the `state` register. -/
def decodeState (w : BitVec 4) (u : WireUnit) : Except DecodeError Instr :=
  match FrameState.ofCode w with
  | none => .error (.reservedState w)
  | some st => decodeUnit st u

/-- The sixteen `LEN.V2.F<f>.C<c>` rows, by function-select and length code (43 R141). -/
def decodeLenV2 (p : Config) (version : BitVec 2) (id1 id2 : Byte) : Instr :=
  if functionSelect p .v2 id1 id2 = false then
    match (lengthCode p id2).toNat with
    | 0 => .lenV2F0C0 version id1 id2
    | 1 => .lenV2F0C1 version id1 id2
    | 2 => .lenV2F0C2 version id1 id2
    | 3 => .lenV2F0C3 version id1 id2
    | 4 => .lenV2F0C4 version id1 id2
    | 5 => .lenV2F0C5 version id1 id2
    | 6 => .lenV2F0C6 version id1 id2
    | _ => .lenV2F0C7 version id1 id2
  else
    match (lengthCode p id2).toNat with
    | 0 => .lenV2F1C0 version id1 id2
    | 1 => .lenV2F1C1 version id1 id2
    | 2 => .lenV2F1C2 version id1 id2
    | 3 => .lenV2F1C3 version id1 id2
    | 4 => .lenV2F1C4 version id1 id2
    | 5 => .lenV2F1C5 version id1 id2
    | 6 => .lenV2F1C6 version id1 id2
    | _ => .lenV2F1C7 version id1 id2

/-- The LEN rows of the table over the header word (43 R140 to R143). -/
def decodeLen (p : Config) (h : BitVec 18) : Except DecodeError Instr :=
  let version := h.extractLsb' 16 2
  let id1 : Byte := h.extractLsb' 8 8
  let id2 : Byte := h.extractLsb' 0 8
  match Version.ofCode p version with
  | none => .error .reservedVersion
  | some .v1 => if functionSelect p .v1 id1 id2 then .ok (.lenV1F1 id1 id2) else .ok (.lenV1F0 id1 id2)
  | some .v1Extended =>
    if functionSelect p .v1Extended id1 id2 then .ok (.lenV1xF1 id1 id2) else .ok (.lenV1xF0 id1 id2)
  | some .v2 => .ok (decodeLenV2 p version id1 id2)

/-- The `INSTR.V2` row: the version is V2 and the instruction bit of id2 is set (42 R114, 30 R69). -/
def decodeInstrBit (p : Config) (h : BitVec 18) : Except DecodeError Instr :=
  let id1 : Byte := h.extractLsb' 8 8
  let id2 : Byte := h.extractLsb' 0 8
  match Version.ofCode p (h.extractLsb' 16 2) with
  | none => .error .reservedVersion
  | some v => if instructionBit p v id2 then .ok (.instrV2 id1 id2) else .error .noInstructionBit

/-- The `BYTE_READ` row: the fixed symbols of `0abcdefgh1` (30 R62). -/
def decodeFrame (f : BitVec 10) : Except DecodeError Instr :=
  if f.getLsbD 9 = false && f.getLsbD 0 then .ok .byteRead else .error .notAFrame

/-- The decoder: total, rejecting by name. Where the header fields lie is the parameters'. -/
def decode (p : Config) : Selector → Except DecodeError Instr
  | .state w u => decodeState w u
  | .header h => decodeLen p h
  | .instrBit h => decodeInstrBit p h
  | .frame f => decodeFrame f

/-- The all-zero Break record, the operand of a state word taken from the table alone (log 14). -/
def zeroBreak : BreakRec :=
  { value := 0, startPos := 0, endPos := 0, bits := 0, toggling := false, ferr := false }

/-- The all-zero Byte record, the operand of a state word taken from the table alone (log 14). -/
def zeroByte : ByteRec := { value := 0, startPos := 0, endPos := 0, ferr := false }

/-- The unit a state code consumes, with every operand zero: a break for codes 0 and 1, else a byte
(30 R70). -/
def zeroUnit (w : BitVec 4) : WireUnit := if w.toNat < 2 then .brk zeroBreak else .byte zeroByte

/-- The operation of a table word by its width, at the parameter values of 00 R5 (log 14): up to 8 bits a STATE word, up to 16 the ten-bit
frame, above that a header word. Bits outside the word itself (`state[3:0]`, the ten symbols,
`H[17:0]`) are not read. A V2 header word with `H[0]` = 1 selects INSTR.V2 as well as a LEN row; asked for
one, the answer is INSTR.V2 (log 13). -/
def tableWord (nbits w : Nat) : Except DecodeError Instr :=
  if nbits ≤ 8 then decode cfg (.state (BitVec.ofNat 4 w) (zeroUnit (BitVec.ofNat 4 w)))
  else if nbits ≤ 16 then decode cfg (.frame (BitVec.ofNat 10 w))
  else
    match decode cfg (.instrBit (BitVec.ofNat 18 w)) with
    | .ok i => .ok i
    | .error _ => decode cfg (.header (BitVec.ofNat 18 w))

/-- The instruction this decoder reads from a table word; none where it refuses. -/
def decodeTableWord (nbits w : Nat) : Option Instr :=
  match tableWord nbits w with
  | .ok i => some i
  | .error _ => none

/-! The encoder. -/

/-- The selector of an operation; none for the rows whose encoding is "-" in the table. For BYTE_READ the
row's fixed symbols, with the data symbols (which the operation reads, and which are no operand) zero. -/
def encode (p : Config) : Instr → Option Selector
  | .iter => none
  | .brkScan => none
  | .byteRead => some (.frame 1)
  | .stNoframe u => some (.state 0 (.brk u))
  | .stHeaderbreak u => some (.state 1 (.brk u))
  | .stHeaderid1 r => some (.state 2 (.byte r))
  | .stHeaderid2 r => some (.state 3 (.byte r))
  | .stInstr1 r => some (.state 4 (.byte r))
  | .stInstr2 r => some (.state 5 (.byte r))
  | .stData r => some (.state 6 (.byte r))
  | .stCrc1 r => some (.state 7 (.byte r))
  | .stCrc2 r => some (.state 8 (.byte r))
  | .stAck r => some (.state 9 (.byte r))
  | .missingByte _ => none
  | .sessionStart => none
  | .sessionCancel => none
  | .sessionExhaust => none
  | .len _ _ _ => none
  | .lenV2F0C0 version id1 id2 => some (.header (headerWord version id1 id2))
  | .lenV2F0C1 version id1 id2 => some (.header (headerWord version id1 id2))
  | .lenV2F0C2 version id1 id2 => some (.header (headerWord version id1 id2))
  | .lenV2F0C3 version id1 id2 => some (.header (headerWord version id1 id2))
  | .lenV2F0C4 version id1 id2 => some (.header (headerWord version id1 id2))
  | .lenV2F0C5 version id1 id2 => some (.header (headerWord version id1 id2))
  | .lenV2F0C6 version id1 id2 => some (.header (headerWord version id1 id2))
  | .lenV2F0C7 version id1 id2 => some (.header (headerWord version id1 id2))
  | .lenV2F1C0 version id1 id2 => some (.header (headerWord version id1 id2))
  | .lenV2F1C1 version id1 id2 => some (.header (headerWord version id1 id2))
  | .lenV2F1C2 version id1 id2 => some (.header (headerWord version id1 id2))
  | .lenV2F1C3 version id1 id2 => some (.header (headerWord version id1 id2))
  | .lenV2F1C4 version id1 id2 => some (.header (headerWord version id1 id2))
  | .lenV2F1C5 version id1 id2 => some (.header (headerWord version id1 id2))
  | .lenV2F1C6 version id1 id2 => some (.header (headerWord version id1 id2))
  | .lenV2F1C7 version id1 id2 => some (.header (headerWord version id1 id2))
  | .lenV1F0 id1 id2 => some (.header (headerWord p.versionCode.v1 id1 id2))
  | .lenV1xF0 id1 id2 => some (.header (headerWord p.versionCode.v1Extended id1 id2))
  | .lenV1F1 id1 id2 => some (.header (headerWord p.versionCode.v1 id1 id2))
  | .lenV1xF1 id1 id2 => some (.header (headerWord p.versionCode.v1Extended id1 id2))
  | .instrV2 id1 id2 => some (.instrBit (headerWord p.versionCode.v2 id1 id2))
  | .crcReset => none
  | .crcAdd _ _ => none
  | .crcAbsorbV1 _ => none
  | .crcAbsorbV2 _ => none
  | .crcResult => none
  | .crcRxcheck _ => none
  | .ackpolV1 _ _ => none
  | .ackpolV1x _ _ => none
  | .ackpolV2 _ _ => none
  | .ackEnabled _ => none

/-- The word of a selector, as spec/opcode_table.json numbers its bits. -/
def Selector.word : Selector → Nat
  | .state w _ => w.toNat
  | .header h => h.toNat
  | .instrBit h => h.toNat
  | .frame f => f.toNat

/-! The match and mask columns of the table, which are written for the parameter values of 00 R5. -/

/-- The match and mask of one table row. -/
structure TableRow where
  pattern : Nat
  mask : Nat
deriving DecidableEq, Repr

/-- The row matches the word: every masked bit is the pattern's. -/
def TableRow.matchesWord (t : TableRow) (w : Nat) : Bool := (w &&& t.mask) == t.pattern

/-- The match and mask columns of spec/opcode_table.json, for the rows that have them. -/
def Instr.tableRow : Instr → Option TableRow
  | .iter => none
  | .brkScan => none
  | .byteRead => none
  | .stNoframe _ => some ⟨0x0, 0xF⟩
  | .stHeaderbreak _ => some ⟨0x1, 0xF⟩
  | .stHeaderid1 _ => some ⟨0x2, 0xF⟩
  | .stHeaderid2 _ => some ⟨0x3, 0xF⟩
  | .stInstr1 _ => some ⟨0x4, 0xF⟩
  | .stInstr2 _ => some ⟨0x5, 0xF⟩
  | .stData _ => some ⟨0x6, 0xF⟩
  | .stCrc1 _ => some ⟨0x7, 0xF⟩
  | .stCrc2 _ => some ⟨0x8, 0xF⟩
  | .stAck _ => some ⟨0x9, 0xF⟩
  | .missingByte _ => none
  | .sessionStart => none
  | .sessionCancel => none
  | .sessionExhaust => none
  | .len _ _ _ => none
  | .lenV2F0C0 _ _ _ => some ⟨0x20000, 0x3001E⟩
  | .lenV2F0C1 _ _ _ => some ⟨0x20002, 0x3001E⟩
  | .lenV2F0C2 _ _ _ => some ⟨0x20004, 0x3001E⟩
  | .lenV2F0C3 _ _ _ => some ⟨0x20006, 0x3001E⟩
  | .lenV2F0C4 _ _ _ => some ⟨0x20008, 0x3001E⟩
  | .lenV2F0C5 _ _ _ => some ⟨0x2000A, 0x3001E⟩
  | .lenV2F0C6 _ _ _ => some ⟨0x2000C, 0x3001E⟩
  | .lenV2F0C7 _ _ _ => some ⟨0x2000E, 0x3001E⟩
  | .lenV2F1C0 _ _ _ => some ⟨0x20010, 0x3001E⟩
  | .lenV2F1C1 _ _ _ => some ⟨0x20012, 0x3001E⟩
  | .lenV2F1C2 _ _ _ => some ⟨0x20014, 0x3001E⟩
  | .lenV2F1C3 _ _ _ => some ⟨0x20016, 0x3001E⟩
  | .lenV2F1C4 _ _ _ => some ⟨0x20018, 0x3001E⟩
  | .lenV2F1C5 _ _ _ => some ⟨0x2001A, 0x3001E⟩
  | .lenV2F1C6 _ _ _ => some ⟨0x2001C, 0x3001E⟩
  | .lenV2F1C7 _ _ _ => some ⟨0x2001E, 0x3001E⟩
  | .lenV1F0 _ _ => some ⟨0x00000, 0x30100⟩
  | .lenV1xF0 _ _ => some ⟨0x10000, 0x30100⟩
  | .lenV1F1 _ _ => some ⟨0x00100, 0x30100⟩
  | .lenV1xF1 _ _ => some ⟨0x10100, 0x30100⟩
  | .instrV2 _ _ => some ⟨0x20001, 0x30001⟩
  | .crcReset => none
  | .crcAdd _ _ => none
  | .crcAbsorbV1 _ => none
  | .crcAbsorbV2 _ => none
  | .crcResult => none
  | .crcRxcheck _ => none
  | .ackpolV1 _ _ => none
  | .ackpolV1x _ _ => none
  | .ackpolV2 _ _ => none
  | .ackEnabled _ => none

end Sys2Proof
end

