-- ==== Sys2Proof/Machine/State.lean ====
section
/-! DEFINITION. The framer's state (spec 10_state.md R10 to R33), the sink calls it makes (20_memory.md R50 to
R55), the environment it runs in (10 R28, R29), the reasons a step can stop, and reset. -/

namespace Sys2Proof.Machine

/-- The flag set of a FrameUnit (10 R26). -/
structure Flags where
  framingError : Bool
  headerBreakExpected : Bool
  crcMismatch : Bool
  receptionFailed : Bool
  unexpectedToggling : Bool
deriving DecidableEq, Repr

/-- The record handed to the sink (10 R30). -/
structure FrameUnit where
  state : FrameState
  rawValue : Byte
  sequenceIndex : BitVec 8
  startPos : Nat
  endPos : Nat
  flags : Flags
deriving DecidableEq, Repr

/-- Marker kinds (30 R73); code 7 is reserved and has no name. -/
inductive MarkerKind where
  | bitZero
  | bitOne
  | startBit
  | stopBit
  | errFraming
  | errToggling
  | stopShort
deriving DecidableEq, Repr

/-- The five sink calls (20 R50 to R55). Markers are kept (20 R54; log 16). -/
inductive SinkCall where
  | emitFrame (u : FrameUnit)
  | commit
  | cancel
  | emitMarker (p : Nat) (k : MarkerKind)
  | emitMissingByte (a b : Nat)
deriving DecidableEq, Repr

/-- `STATUS.mode` (10 R25); code 3 is never produced and has no name. -/
inductive Mode where
  | idle
  | run
  | done
deriving DecidableEq, Repr

/-- `STATUS.done_cause` (10 R25). -/
inductive DoneCause where
  | cancelled
  | exhausted
deriving DecidableEq, Repr

/-- One NODE_ACK entry (10 R24). -/
structure NodeEntry where
  present : Bool
  enable : Bool
deriving DecidableEq, Repr

/-- The registers the host can read by name (10 R20 to R25, 60 R187). -/
inductive HostReg where
  | state | pos | id1 | id2 | bodyLen | remaining
  | crc | crcPar | crcHold | crcB1 | ackAccept
  | pendingBreak | pbStart | pbEnd | pbBits | pbFerr
  | lastEnd | brkBits
  | version | spb | ackEn | ackValue
  | nodeAck (a : Byte)
  | statusMode | doneCause | cancel
deriving DecidableEq, Repr

/-- One pending action of the environment (10 R20, R25, R29, 70 R190, R191; log 1). -/
inductive HostReq where
  /-- The framer takes one step. -/
  | turn
  /-- A control-register write (10 R21 to R24). -/
  | writeVersion (v : BitVec 2)
  | writeSpb (n : Nat)
  | writeAckEn (b : Bool)
  | writeAckValue (b : Byte)
  | writeNodeAck (a : Byte) (e : NodeEntry)
  /-- The write-1 strobe of `CTRL.START` (10 R25). -/
  | start
  /-- A write of 1 to `CTRL.CANCEL` (10 R25). -/
  | cancel
  /-- The reset of 70 R190. -/
  | reset
  /-- A register read (60 R187). -/
  | read (r : HostReg)
  /-- The stream of the next session is put in place (70 R191 item 5). -/
  | load (samples : List Sample) (ended : Bool)
  /-- A live source produces more samples (20 R47). -/
  | deliver (samples : List Sample)
  /-- The source ends: no more samples will come (20 R47). -/
  | endStream
deriving DecidableEq, Repr

/-- What an operation returned to its caller (log 3). -/
inductive Result where
  | none
  | brk (u : BreakRec)
  | read (r : ReadResult)
  | length (n : Nat)
  | crc (c : Word)
  | rxCheck (rx : Word) (mismatch : Bool)
  | ackPolicy (expectAck : Bool) (accepted : Byte)
  | enabled (b : Bool)
  | register (value : Option Nat)
deriving DecidableEq, Repr

/-- The whole machine: the registers of 10 R10, the parameters and the environment of 10 R28 and R29, and the
model's own `waiting`, `result` and `freeIndex`. -/
structure State where
  /-- The parameters of 00 R5, fixed for a machine: no operation, host action or reset writes them. They stand
  here because a model "quantifies over" them (10 R29) and a step has no other input (log 18). -/
  config : Config
  /-- The sequencer register (10 R11). -/
  state : FrameState
  /-- The sample cursor (10 R12). Positions and distances in samples or bits are unbounded naturals: the
  spec's `POS_W` = 64 bits "may be taken as unbounded naturals" (70 R207; log 7, DESIGN CHOICE, safe). -/
  pos : Nat
  /-- The header registers (10 R13). -/
  id1 : Byte
  id2 : Byte
  /-- The length registers (10 R14). -/
  bodyLen : BitVec 8
  remaining : BitVec 8
  /-- The CRC state `crc`, `crc_par`, `crc_hold` (10 R15). -/
  crc : Word
  crcPar : Bool
  crcHold : Byte
  /-- The received-CRC latch (10 R16). -/
  crcB1 : Byte
  /-- The ACK latch (10 R17). -/
  ackAccept : Byte
  /-- The pending-break latch (10 R18). -/
  pendingBreak : Bool
  pbStart : Nat
  pbEnd : Nat
  pbBits : Nat
  pbFerr : Bool
  /-- Bookkeeping (10 R19). -/
  lastEnd : Nat
  brkBits : Nat
  /-- `VERSION` (10 R21). -/
  version : BitVec 2
  /-- `SPB`, an unsigned integer of `POS_W` bits (10 R22); the one write of it keeps it below `2 ^ POS_W`. -/
  spb : Nat
  /-- `ACK_EN` (10 R23). -/
  ackEn : Bool
  /-- `ACK_VALUE` (10 R23). -/
  ackValue : Byte
  /-- `NODE_ACK[0..255]`: canonical cells, bit 1 present, bit 0 enable (10 R24; log 6). -/
  nodeAck : List Host.Cell
  /-- `CTRL.CANCEL` (10 R25). -/
  cancel : Bool
  /-- `STATUS.mode` (10 R25). -/
  mode : Mode
  /-- `STATUS.done_cause` (10 R25). -/
  doneCause : DoneCause
  /-- Environment: the delivered samples (20 R40). -/
  samples : List Sample
  /-- Environment: no more samples will come (20 R47; log 2). -/
  streamEnded : Bool
  /-- Environment: the sink calls performed, oldest first (20 R50). -/
  sink : List SinkCall
  /-- Environment: the host's pending actions, oldest first (log 1). -/
  inbox : List HostReq
  /-- The model's own: a wire operation waits for samples of a live stream (20 R47, 93 U7; log 2). -/
  waiting : Bool
  /-- The model's own: the value the operation executed last returned (log 3). -/
  result : Result
  /-- The model's own: how many free values have been taken; the next one's index (log 8, 17). -/
  freeIndex : Nat
deriving DecidableEq, Repr

/-- The reasons to stop with a fault: none. "No other error exists: there is no illegal-operation,
alignment, access, arithmetic or privilege fault in this block" (60 R170; log 26). -/
inductive Fault where
deriving DecidableEq, Repr

/-- The reasons to refuse. -/
inductive Refusal where
  /-- Raised by an arm of exec for an operation without a meaning; no arm does. Safe. -/
  | notModelled (mnemonic : String)
  /-- Raised by an operation that reads `VERSION` (or takes a version operand) and finds the reserved code
  3, which START keeps out of a session: "Treatment: refuse" (93 U4, U6; log 9). Safe. -/
  | reservedVersion
  /-- Raised by a wire operation that finds `SPB` < 2, which START keeps out of a session: "Treatment:
  refuse" (93 U4; log 9). Safe. -/
  | illegalBitPeriod
deriving DecidableEq, Repr

/-- The outcome of one operation or one step. -/
abbrev Outcome := Host.Outcome State Fault Refusal

/-- The machine of some parameters right after reset, with nothing placed in its environment (10 R33, 70 R190). `spb`, the
`pb_*` registers and the `enable` bits have no reset value in the spec: DESIGN CHOICE zero, unsafe
(log 4, 5, 6). -/
def State.resetWith (p : Config) : State where
  config := p
  state := .noFrame
  pos := 0
  id1 := 0x00
  id2 := 0x00
  bodyLen := 0
  remaining := 0
  crc := p.crcInit
  crcPar := false
  crcHold := 0x00
  crcB1 := 0x00
  ackAccept := 0x00
  pendingBreak := false
  pbStart := 0
  pbEnd := 0
  pbBits := 0
  pbFerr := false
  lastEnd := 0
  brkBits := 0
  version := p.versionCode.v2
  spb := 0
  ackEn := false
  ackValue := p.ackValueReset
  nodeAck := []
  cancel := false
  mode := .idle
  doneCause := .cancelled
  samples := []
  streamEnded := false
  sink := []
  inbox := []
  waiting := false
  result := .none
  freeIndex := 0

/-- The machine right after reset, at the parameter values of 00 R5. -/
def State.reset : State := State.resetWith cfg

end Sys2Proof.Machine
end

