-- ==== Sys2Proof/Machine/Flags.lean ====
section
/-! DEFINITION. The flag set of a unit: which flags an operation raises on the unit it builds (spec 10_state.md
R26, 60_exceptions.md R170 to R178). "`raise F` adds `F` to the flag set of the FrameUnit the current step is
building" (60 R170); no flag is kept anywhere else. -/

namespace Sys2Proof.Machine

/-- The empty flag set each step starts from (42 R110). -/
def Flags.empty : Flags :=
  { framingError := false, headerBreakExpected := false, crcMismatch := false,
    receptionFailed := false, unexpectedToggling := false }

/-- The flag code: bit 0 FramingError, 1 HeaderBreakExpected, 2 CrcMismatch, 3 ReceptionFailed,
4 UnexpectedToggling (30 R71). -/
def Flags.code (f : Flags) : BitVec 5 :=
  BitVec.ofBool f.unexpectedToggling ++ BitVec.ofBool f.receptionFailed ++ BitVec.ofBool f.crcMismatch ++
    BitVec.ofBool f.headerBreakExpected ++ BitVec.ofBool f.framingError

/-- The flags of a `HeaderBreak` unit: UnexpectedToggling from `toggling`, FramingError from `ferr`,
HeaderBreakExpected when the value is not the all-zero sentinel (42 R111, 60 R171, R172, R175). -/
def breakFlags (u : BreakRec) : Flags :=
  { Flags.empty with
    unexpectedToggling := u.toggling
    framingError := u.ferr
    headerBreakExpected := u.value != 0x00 }

/-- The flags of a byte unit: FramingError from `ferr` (42 R124, 60 R171). -/
def byteFlags (r : ByteRec) : Flags := { Flags.empty with framingError := r.ferr }

/-- The flags of a `CrcByte2` unit: CrcMismatch as well (42 R119, 60 R173). -/
def crc2Flags (r : ByteRec) (mismatch : Bool) : Flags := { byteFlags r with crcMismatch := mismatch }

/-- The flags of an `AckByte` unit: ReceptionFailed when the byte is not the accepted one (42 R120,
60 R174). -/
def ackFlags (r : ByteRec) (accepted : Byte) : Flags :=
  { byteFlags r with receptionFailed := r.value != accepted }

/-- The flags a unit of each FrameState can carry, HeaderBreakExpected among them (60 R178). -/
def Flags.allowed (st : FrameState) (f : Flags) : Bool :=
  match st with
  | .noFrame => f == Flags.empty
  | .headerBreak => !f.crcMismatch && !f.receptionFailed
  | .headerId1 | .headerId2 | .instructionByte1 | .instructionByte2 | .dataByte | .crcByte1 =>
    !f.crcMismatch && !f.receptionFailed && !f.unexpectedToggling && !f.headerBreakExpected
  | .crcByte2 => !f.receptionFailed && !f.unexpectedToggling && !f.headerBreakExpected
  | .ackByte => !f.crcMismatch && !f.unexpectedToggling && !f.headerBreakExpected

end Sys2Proof.Machine
end

