-- ==== Sys2Proof/Machine/Ops.lean ====
section
/-! DEFINITION. The named operations the meanings share: sink calls, the NODE_ACK table, the cursor primitives,
entering and leaving an event, and reading the configuration (spec 20_memory.md, 42_frame_fsm.md,
60_exceptions.md). -/

namespace Sys2Proof.Machine

/-! Sink calls (20 R50). -/

/-- Perform one sink call: it is appended to the sequence (20 R50, R58). -/
def State.emit (s : State) (c : SinkCall) : State := { s with sink := s.sink ++ [c] }

/-- Emit a FrameUnit and write `last_end` (42 R125). -/
def State.emitUnit (s : State) (u : FrameUnit) : State :=
  { s with sink := s.sink ++ [.emitFrame u], lastEnd := u.endPos }

/-- Write the sequencer register. -/
def State.goto (s : State) (st : FrameState) : State := { s with state := st }

/-- The value an operation returns to its caller (log 3). -/
def State.returns (s : State) (r : Result) : State := { s with result := r }

/-- The unit of a byte step that is no data byte: sequence index 0 (10 R30, 42 R122, R125). -/
def unitOf (st : FrameState) (r : ByteRec) (flags : Flags) : FrameUnit :=
  { state := st, rawValue := r.value, sequenceIndex := 0,
    startPos := r.startPos, endPos := r.endPos, flags }

/-- The unit of a break (42 R111). -/
def breakUnit (u : BreakRec) : FrameUnit :=
  { state := .headerBreak, rawValue := u.value, sequenceIndex := 0,
    startPos := u.startPos, endPos := u.endPos, flags := breakFlags u }

/-! The NODE_ACK table as cells (address, byte) in one canonical form: addresses strictly rising and below
the table's size, no cell equal to what an unlisted address reads as (10 R24, 20 R59; log 6). -/

/-- What an entry that no write has touched reads as: `present` 0 (10 R33), `enable` 0 (log 6). -/
def nodeDefault : Byte := 0

/-- The byte that holds an entry: bit 1 `present`, bit 0 `enable` (10 R24). -/
def NodeEntry.toByte (e : NodeEntry) : Byte :=
  0#6 ++ BitVec.ofBool e.present ++ BitVec.ofBool e.enable

/-- The entry a byte holds. -/
def NodeEntry.ofByte (b : Byte) : NodeEntry := { present := b.getLsbD 1, enable := b.getLsbD 0 }

/-- The byte at an address. -/
def Memory.read : List Host.Cell → Nat → Byte
  | [], _ => nodeDefault
  | (k, v) :: m, a => if k = a then v else Memory.read m a

/-- Write a byte: the cell is replaced, put in its place in the order, or removed when the byte is the
default. -/
def Memory.write : List Host.Cell → Nat → Byte → List Host.Cell
  | [], a, b => if b = nodeDefault then [] else [(a, b)]
  | (k, v) :: m, a, b =>
    if k < a then (k, v) :: Memory.write m a b
    else if k = a then (if b = nodeDefault then m else (a, b) :: m)
    else (if b = nodeDefault then (k, v) :: m else (a, b) :: (k, v) :: m)

/-- Every address of the list is at least `lo`, they rise strictly and stay below `size`, and no cell holds
the default or a bit above bit 1. -/
def Memory.wfAbove (size : Nat) : List Host.Cell → Nat → Bool
  | [], _ => true
  | (k, v) :: m, lo =>
    decide (lo ≤ k) && decide (k < size) && (v != nodeDefault) && decide (v.toNat < 4) &&
      Memory.wfAbove size m (k + 1)

/-- The canonical form of a table of `size` entries. -/
def Memory.wf (size : Nat) (m : List Host.Cell) : Bool := Memory.wfAbove size m 0

/-- `NODE_ACK[a]` (20 R59). -/
def nodeEntry (m : List Host.Cell) (a : Byte) : NodeEntry := NodeEntry.ofByte (Memory.read m a.toNat)

/-! The cursor primitives (20 R42 to R48). A wire operation changes the cursor and makes markers, nothing
else; the markers are collected in call order. -/

/-- The sample cursor and the markers emitted so far in this wire operation. -/
structure Cursor where
  pos : Nat
  trace : List SinkCall
deriving DecidableEq, Repr

/-- A cursor operation: done with a value, or `raise Exhausted` with what happened before (20 R47). -/
inductive Wire (α : Type) where
  | done (a : α) (c : Cursor)
  | exhausted (c : Cursor)
deriving DecidableEq, Repr

/-- One cursor operation after another; Exhausted ends the sequence (20 R47). -/
def Wire.bind {α β : Type} (w : Wire α) (f : α → Cursor → Wire β) : Wire β :=
  match w with
  | .done a c => f a c
  | .exhausted c => .exhausted c

/-- `emit_marker(pos, k)` (20 R54). -/
def Cursor.mark (c : Cursor) (k : MarkerKind) : Cursor :=
  { c with trace := c.trace ++ [.emitMarker c.pos k] }

/-- `level()` (20 R42). -/
def level (samples : List Sample) (c : Cursor) : Wire Bool :=
  match samples[c.pos]? with
  | some b => .done b c
  | none => .exhausted c

/-- `advance(n)`: the cursor moves, then the end of the stream is noticed (20 R43). -/
def advance (samples : List Sample) (n : Nat) (c : Cursor) : Wire Unit :=
  let c' := { c with pos := c.pos + n }
  if c'.pos < samples.length then .done () c' else .exhausted c'

/-- The index of the first sample that differs from `b`, counting from `q`. -/
def firstOther (b : Sample) : List Sample → Nat → Option Nat
  | [], _ => none
  | x :: xs, q => if x = b then firstOther b xs (q + 1) else some q

/-- The least index `q > pos` with `S[q] != S[pos]` (20 R44). -/
def nextEdge (samples : List Sample) (pos : Nat) : Option Nat :=
  match samples.drop pos with
  | [] => none
  | b :: rest => firstOther b rest (pos + 1)

/-- `advance_to_next_edge()` (20 R44). -/
def advanceToNextEdge (samples : List Sample) (c : Cursor) : Wire Unit :=
  match nextEdge samples c.pos with
  | some q => .done () { c with pos := q }
  | none => .exhausted c

/-- `samples_until_next_edge()` (20 R45). -/
def samplesUntilNextEdge (samples : List Sample) (c : Cursor) : Wire Nat :=
  match nextEdge samples c.pos with
  | some q => .done (q - c.pos) c
  | none => .exhausted c

/-- `rnd(d)`: whole bits nearest to `d` samples, halves up (20 R48). -/
def rnd (spb d : Nat) : Nat := (2 * d + spb) / (2 * spb)

/-- `HALF`: half a bit in samples (00 R5). -/
def half (p : Config) (spb : Nat) : Nat := spb / p.halfDivisor

/-! Events (60 R177, R181, R182). -/

/-- A terminating event: mode DONE with its cause; nothing else changes (42 R128, R129). -/
def State.terminate (s : State) (cause : DoneCause) : State :=
  { s with mode := .done, doneCause := cause, waiting := false }

/-- Entry of MissingByte: cancel, report the region, latch the break, restart header detection
(42 R126, 60 R181). -/
def State.enterMissingByte (s : State) (r : BreakFieldRec) : State :=
  { s with
    sink := s.sink ++ [.cancel, .emitMissingByte s.lastEnd r.startPos]
    pbStart := r.startPos
    pbEnd := r.endPos
    pbBits := r.bits
    pbFerr := r.ferr
    pendingBreak := true
    state := .noFrame }

/-- The pending break as a Break record (42 R110). -/
def State.pendingRec (s : State) : BreakRec :=
  { value := 0x00, startPos := s.pbStart, endPos := s.pbEnd, bits := s.pbBits,
    toggling := false, ferr := s.pbFerr }

/-- Return from MissingByte: the latch is cleared as the break is consumed (42 R110, 60 R182). -/
def State.clearPending (s : State) : State := { s with pendingBreak := false }

/-! Reading the configuration. -/

/-- The version that the register `VERSION` names; none where it holds a reserved code (10 R21). -/
def State.protocol (s : State) : Option Version := Version.ofCode s.config s.version

/-- Continue with the version `VERSION` names; a reserved code is refused (93 U6; log 9). -/
def State.withVersion (s : State) (k : Version → Outcome) : Outcome :=
  match s.protocol with
  | some v => k v
  | none => .refused .reservedVersion

/-- Continue with the version and the samples per bit; a reserved VERSION and SPB below 2 are refused (93 U4;
log 9). -/
def State.withTiming (s : State) (k : Version → Nat → Outcome) : Outcome :=
  s.withVersion fun v => if 2 ≤ s.spb then k v s.spb else .refused .illegalBitPeriod

/-- The configuration START accepts (42 R127). -/
def State.legalConfig (s : State) : Bool := s.protocol.isSome && decide (2 ≤ s.spb)

/-! Joining a wire operation to the state. -/

/-- Where a wire operation starts. -/
def State.cursor (s : State) : Cursor := { pos := s.pos, trace := [] }

/-- The state after a wire operation: cursor moved, markers at the sink, no longer waiting. -/
def State.atCursor (s : State) (c : Cursor) : State :=
  { s with pos := c.pos, sink := s.sink ++ c.trace, waiting := false }

/-- The state after a wire operation on a stream that has ended: the markers it made are at the sink, and the
cursor stands anywhere at or past its value before the step, a free value (20 R47, 93 U3; log 8). -/
def State.exhaustedAt (s : State) (c : Cursor) : State :=
  { s with
    pos := s.pos + Config.exhaustedAdvance s.freeIndex
    sink := s.sink ++ c.trace
    freeIndex := s.freeIndex + 1 }

/-- Exhausted (20 R47): on a stream that has ended the session ends (42 R129); on a live stream the step
does not complete until the sample exists and no register changes meanwhile (93 U7; log 2). The markers that a
waiting operation has made reach the sink when it completes or the stream ends; DESIGN CHOICE: a reset that comes
while it waits drops them, since the operation then never completes (log 2, log 19). -/
def State.starve (s : State) (c : Cursor) : State :=
  if s.streamEnded then (s.exhaustedAt c).terminate .exhausted else { s with waiting := true }

/-- Run a wire operation and continue with what it returns. -/
def State.onWire {α : Type} (s : State) (w : Wire α) (k : α → State → Outcome) : Outcome :=
  match w with
  | .done a c => k a (s.atCursor c)
  | .exhausted c => .next (s.starve c)

end Sys2Proof.Machine
end

