-- ==== Sys2Proof/Machine/Ack.lean ====
section
/-! DEFINITION. The ACK policy (spec 45_ack_policy.md R160 to R162) and the meanings of ACKPOL.V1, ACKPOL.V1X,
ACKPOL.V2 and ACK_ENABLED. -/

namespace Sys2Proof.Machine

/-- `ACK_ENABLED(node)`: a present entry overrides `ACK_EN` (45 R161). -/
def ackEnabled (s : State) (node : Byte) : Bool :=
  if (nodeEntry s.nodeAck node).present then (nodeEntry s.nodeAck node).enable else s.ackEn

/-- `expect_ack`: enabled and the direction bit at `DIR_ACK_LEVEL` (45 R160, R162). -/
def expectAck (s : State) (v : Version) (id1 id2 : Byte) : Bool :=
  ackEnabled s (nodeAddress v id1) && (directionBit s.config v id1 id2 == s.config.dirAckLevel.get v)

/-- `accepted`: fixed in V1 and V1Extended, `ACK_VALUE` in V2 (45 R160, R162). -/
def acceptedValue (s : State) (v : Version) : Byte :=
  match v with
  | .v1 => s.config.ackFixed
  | .v1Extended => s.config.ackFixed
  | .v2 => s.ackValue

/-- `ACKPOL.V1` (45 R160). -/
def execAckpolV1 (id1 id2 : Byte) (s : State) : Outcome :=
  .next (s.returns (.ackPolicy (expectAck s .v1 id1 id2) (acceptedValue s .v1)))

/-- `ACKPOL.V1X` (45 R160). -/
def execAckpolV1x (id1 id2 : Byte) (s : State) : Outcome :=
  .next (s.returns (.ackPolicy (expectAck s .v1Extended id1 id2) (acceptedValue s .v1Extended)))

/-- `ACKPOL.V2` (45 R160). -/
def execAckpolV2 (id1 id2 : Byte) (s : State) : Outcome :=
  .next (s.returns (.ackPolicy (expectAck s .v2 id1 id2) (acceptedValue s .v2)))

/-- `ACK_ENABLED` (45 R161). -/
def execAckEnabled (node : Byte) (s : State) : Outcome := .next (s.returns (.enabled (ackEnabled s node)))

end Sys2Proof.Machine
end

