-- ==== Sys2Proof/Machine/Crc.lean ====
section
/-! DEFINITION. The CRC-16 accumulator (spec 44_crc.md R150 to R155) and the meanings of CRC.RESET, CRC.ADD,
CRC.ABSORB.V1, CRC.ABSORB.V2, CRC.RESULT and CRC.RXCHECK. -/

namespace Sys2Proof.Machine

/-- One turn of the loop of `CRC_ADD`: the register after the top bits of `c` and `b` are compared
(44 R151). -/
def crcBit (p : Config) (c : Word) (b : Byte) : Word :=
  if c.getLsbD 15 != b.getLsbD 7 then (c <<< 1) ^^^ p.crcPoly else c <<< 1

/-- `n` turns of the loop, the byte shifting left (44 R151). -/
def crcBits (p : Config) : Nat → Word → Byte → Word
  | 0, c, _ => c
  | n + 1, c, b => crcBits p n (crcBit p c b) (b <<< 1)

/-- `CRC_ADD(c, b)` (44 R151). -/
def crcAdd (p : Config) (c : Word) (b : Byte) : Word := crcBits p 8 c b

/-- `CRC16 b1, b2, ..`: the bytes added in order from the initial value (30 R81). -/
def crc16 (p : Config) (bytes : List Byte) : Word := bytes.foldl (crcAdd p) p.crcInit

/-- `CRC_RESET()`: `crc_hold` is not written (44 R150). -/
def State.crcReset (s : State) : State := { s with crc := s.config.crcInit, crcPar := false }

/-- The arm for a version without pairing (44 R152). -/
def State.absorbByte (s : State) (b : Byte) : State := { s with crc := crcAdd s.config s.crc b }

/-- The arm with pairing: the first byte of a pair is held; the second is added, then the held one
(44 R152). -/
def State.absorbPair (s : State) (b : Byte) : State :=
  { s with
    crc := if s.crcPar then crcAdd s.config (crcAdd s.config s.crc b) s.crcHold else s.crc
    crcHold := if s.crcPar then s.crcHold else b
    crcPar := !s.crcPar }

/-- `CRC_ABSORB(b)` (44 R152). -/
def State.absorb (s : State) (v : Version) (b : Byte) : State :=
  if s.config.crcPairs.get v then s.absorbPair b else s.absorbByte b

/-- `CRC_RX(b1, b2)` (44 R154). -/
def crcRx (p : Config) (v : Version) (b1 b2 : Byte) : Word :=
  if p.crcRxLowFirst.get v then b2 ++ b1 else b1 ++ b2

/-- The comparison of CRC.RXCHECK: true raises CrcMismatch (44 R154). -/
def crcMismatch (s : State) (v : Version) (b2 : Byte) : Bool :=
  crcRx s.config v s.crcB1 b2 != s.crc

/-- `CRC.RESET` (44 R150). -/
def execCrcReset (s : State) : Outcome := .next s.crcReset

/-- `CRC.ADD`: a pure function; the caller gets the value (44 R151). -/
def execCrcAdd (c : Word) (b : Byte) (s : State) : Outcome :=
  .next (s.returns (.crc (crcAdd s.config c b)))

/-- `CRC.ABSORB.V1` (44 R152). -/
def execCrcAbsorbV1 (b : Byte) (s : State) : Outcome := .next (s.absorbByte b)

/-- `CRC.ABSORB.V2` (44 R152). -/
def execCrcAbsorbV2 (b : Byte) (s : State) : Outcome := .next (s.absorbPair b)

/-- `CRC.RESULT`: reads the register without mutating it (44 R153). -/
def execCrcResult (s : State) : Outcome := .next (s.returns (.crc s.crc))

/-- `CRC.RXCHECK`: the assembled value, and whether it raises CrcMismatch (44 R154). -/
def execCrcRxcheck (b2 : Byte) (s : State) : Outcome :=
  s.withVersion fun v => .next (s.returns (.rxCheck (crcRx s.config v s.crcB1 b2) (crcMismatch s v b2)))

end Sys2Proof.Machine
end

