-- ==== Sys2Proof/Machine/Length.lean ====
section
/-! DEFINITION. The length decoder (spec 43_length_decoder.md R140 to R144) and the meanings of LEN and its
cases. -/

namespace Sys2Proof.Machine

/-- `LEN_V2(id2)` (43 R141). -/
def lenV2 (p : Config) (id2 : Byte) : Nat :=
  let code := (lengthCode p id2).toNat
  if functionSelect p .v2 0 id2 = false then
    if code ≤ 5 then code * 2 else if code = 6 then 18 else 24
  else
    if code = 0 then 6 else if code ≤ 5 then code * 12 else if code = 6 then 84 else 128

/-- `LEN_V1X_F1(f6)` (43 R143): the low two bits of the field are dropped. -/
def lenV1XF1 (f6 : BitVec 6) : Nat := ((f6 >>> 2).toNat + 1) * 2

/-- `LEN_V1(id1, id2, extended)` with `extended` = 0 (43 R142). -/
def lenV1 (p : Config) (id1 id2 : Byte) : Nat :=
  if functionSelect p .v1 id1 id2 = false then popcount (field3 p id2) * 6 else popcount (field6 p id2) * 6

/-- `LEN_V1(id1, id2, extended)` with `extended` = 1 (43 R142, R143). -/
def lenV1X (p : Config) (id1 id2 : Byte) : Nat :=
  if functionSelect p .v1Extended id1 id2 = false then popcount (field3 p id2) * 6 else lenV1XF1 (field6 p id2)

/-- `LEN(version, id1, id2)` (43 R140). -/
def len (p : Config) (v : Version) (id1 id2 : Byte) : Nat :=
  match v with
  | .v2 => lenV2 p id2
  | .v1 => lenV1 p id1 id2
  | .v1Extended => lenV1X p id1 id2

/-- `LEN`: the dispatcher; version 3 "cannot occur" and is refused (43 R140; log 9). -/
def execLen (version : BitVec 2) (id1 id2 : Byte) (s : State) : Outcome :=
  match Version.ofCode s.config version with
  | some v => .next (s.returns (.length (len s.config v id1 id2)))
  | none => .refused .reservedVersion

/-- `LEN.V2.F0.C0`: 0 bytes; no header bit is read beyond the row's (43 R141). -/
def execLenV2F0C0 (_version : BitVec 2) (_id1 _id2 : Byte) (s : State) : Outcome :=
  .next (s.returns (.length 0))

/-- `LEN.V2.F0.C1`: 2 bytes; no header bit is read beyond the row's (43 R141). -/
def execLenV2F0C1 (_version : BitVec 2) (_id1 _id2 : Byte) (s : State) : Outcome :=
  .next (s.returns (.length 2))

/-- `LEN.V2.F0.C2`: 4 bytes; no header bit is read beyond the row's (43 R141). -/
def execLenV2F0C2 (_version : BitVec 2) (_id1 _id2 : Byte) (s : State) : Outcome :=
  .next (s.returns (.length 4))

/-- `LEN.V2.F0.C3`: 6 bytes; no header bit is read beyond the row's (43 R141). -/
def execLenV2F0C3 (_version : BitVec 2) (_id1 _id2 : Byte) (s : State) : Outcome :=
  .next (s.returns (.length 6))

/-- `LEN.V2.F0.C4`: 8 bytes; no header bit is read beyond the row's (43 R141). -/
def execLenV2F0C4 (_version : BitVec 2) (_id1 _id2 : Byte) (s : State) : Outcome :=
  .next (s.returns (.length 8))

/-- `LEN.V2.F0.C5`: 10 bytes; no header bit is read beyond the row's (43 R141). -/
def execLenV2F0C5 (_version : BitVec 2) (_id1 _id2 : Byte) (s : State) : Outcome :=
  .next (s.returns (.length 10))

/-- `LEN.V2.F0.C6`: 18 bytes; no header bit is read beyond the row's (43 R141). -/
def execLenV2F0C6 (_version : BitVec 2) (_id1 _id2 : Byte) (s : State) : Outcome :=
  .next (s.returns (.length 18))

/-- `LEN.V2.F0.C7`: 24 bytes; no header bit is read beyond the row's (43 R141). -/
def execLenV2F0C7 (_version : BitVec 2) (_id1 _id2 : Byte) (s : State) : Outcome :=
  .next (s.returns (.length 24))

/-- `LEN.V2.F1.C0`: 6 bytes; no header bit is read beyond the row's (43 R141). -/
def execLenV2F1C0 (_version : BitVec 2) (_id1 _id2 : Byte) (s : State) : Outcome :=
  .next (s.returns (.length 6))

/-- `LEN.V2.F1.C1`: 12 bytes; no header bit is read beyond the row's (43 R141). -/
def execLenV2F1C1 (_version : BitVec 2) (_id1 _id2 : Byte) (s : State) : Outcome :=
  .next (s.returns (.length 12))

/-- `LEN.V2.F1.C2`: 24 bytes; no header bit is read beyond the row's (43 R141). -/
def execLenV2F1C2 (_version : BitVec 2) (_id1 _id2 : Byte) (s : State) : Outcome :=
  .next (s.returns (.length 24))

/-- `LEN.V2.F1.C3`: 36 bytes; no header bit is read beyond the row's (43 R141). -/
def execLenV2F1C3 (_version : BitVec 2) (_id1 _id2 : Byte) (s : State) : Outcome :=
  .next (s.returns (.length 36))

/-- `LEN.V2.F1.C4`: 48 bytes; no header bit is read beyond the row's (43 R141). -/
def execLenV2F1C4 (_version : BitVec 2) (_id1 _id2 : Byte) (s : State) : Outcome :=
  .next (s.returns (.length 48))

/-- `LEN.V2.F1.C5`: 60 bytes; no header bit is read beyond the row's (43 R141). -/
def execLenV2F1C5 (_version : BitVec 2) (_id1 _id2 : Byte) (s : State) : Outcome :=
  .next (s.returns (.length 60))

/-- `LEN.V2.F1.C6`: 84 bytes; no header bit is read beyond the row's (43 R141). -/
def execLenV2F1C6 (_version : BitVec 2) (_id1 _id2 : Byte) (s : State) : Outcome :=
  .next (s.returns (.length 84))

/-- `LEN.V2.F1.C7`: 128 bytes; no header bit is read beyond the row's (43 R141). -/
def execLenV2F1C7 (_version : BitVec 2) (_id1 _id2 : Byte) (s : State) : Outcome :=
  .next (s.returns (.length 128))

/-- `LEN.V1.F0`: six bytes for each set bit of the 3-bit field (43 R142). -/
def execLenV1F0 (_id1 id2 : Byte) (s : State) : Outcome :=
  .next (s.returns (.length (popcount (field3 s.config id2) * 6)))

/-- `LEN.V1X.F0`: as V1 (43 R142). -/
def execLenV1xF0 (_id1 id2 : Byte) (s : State) : Outcome :=
  .next (s.returns (.length (popcount (field3 s.config id2) * 6)))

/-- `LEN.V1.F1`: six bytes for each set bit of the 6-bit field (43 R142). -/
def execLenV1F1 (_id1 id2 : Byte) (s : State) : Outcome :=
  .next (s.returns (.length (popcount (field6 s.config id2) * 6)))

/-- `LEN.V1X.F1`: `(f6 >> 2 + 1) * 2` (43 R143). -/
def execLenV1xF1 (_id1 id2 : Byte) (s : State) : Outcome :=
  .next (s.returns (.length (lenV1XF1 (field6 s.config id2))))

end Sys2Proof.Machine
end

