-- ==== Sys2Proof/Machine/Fsm.lean ====
section
/-! DEFINITION. The state steps of the packet state machine, the instruction-byte branch and the missing-byte
recovery (spec 42_frame_fsm.md R111 to R126). -/

namespace Sys2Proof.Machine

/-- A break-field read consumed in state `NoFrame` or `HeaderBreak` (42 R111). -/
def State.acceptBreak (s : State) (u : BreakRec) : State :=
  if u.value = 0x00 then
    ((({ s with brkBits := u.bits }.emit .commit).crcReset).emitUnit (breakUnit u)).goto .headerId1
  else
    (({ s with brkBits := u.bits }.emitUnit (breakUnit u)).emit .cancel).goto .noFrame

/-- `ST.NOFRAME(u)` (42 R111). -/
def execStNoframe (u : BreakRec) (s : State) : Outcome := .next (s.acceptBreak u)

/-- `ST.HEADERBREAK(u)`: "Identical to `ST.NOFRAME` in every respect" (42 R112). -/
def execStHeaderbreak (u : BreakRec) (s : State) : Outcome := .next (s.acceptBreak u)

/-- `ST.HEADERID1(r)` (42 R113). -/
def execStHeaderid1 (r : ByteRec) (s : State) : Outcome :=
  s.withVersion fun v =>
    .next ((({ s with id1 := r.value }.absorb v r.value).emitUnit
      (unitOf .headerId1 r (byteFlags r))).goto .headerId2)

/-- Where the packet goes when the header and the instruction bytes are read (42 R114, R116). -/
def afterHeader (bodyLen : BitVec 8) : FrameState := if bodyLen = 0 then .crcByte1 else .dataByte

/-- `ST.HEADERID2(r)` (42 R114). -/
def execStHeaderid2 (r : ByteRec) (s : State) : Outcome :=
  s.withVersion fun v =>
    let bodyLen := BitVec.ofNat 8 (len s.config v s.id1 r.value)
    .next ((({ s with id2 := r.value, bodyLen, remaining := bodyLen }.absorb v r.value).emitUnit
      (unitOf .headerId2 r (byteFlags r))).goto
        (if instructionBit s.config v r.value then .instructionByte1 else afterHeader bodyLen))

/-- `INSTR.V2`: instruction bytes follow "regardless of computed length" (42 R114). -/
def execInstrV2 (_id1 _id2 : Byte) (s : State) : Outcome :=
  .next (s.goto .instructionByte1)

/-- `ST.INSTR1(r)` (42 R115). -/
def execStInstr1 (r : ByteRec) (s : State) : Outcome :=
  s.withVersion fun v =>
    .next (((s.absorb v r.value).emitUnit
      (unitOf .instructionByte1 r (byteFlags r))).goto .instructionByte2)

/-- `ST.INSTR2(r)` (42 R116). -/
def execStInstr2 (r : ByteRec) (s : State) : Outcome :=
  s.withVersion fun v =>
    .next (((s.absorb v r.value).emitUnit
      (unitOf .instructionByte2 r (byteFlags r))).goto (afterHeader s.bodyLen))

/-- `ST.DATA(r)`: the sequence index is taken after the decrement (42 R117, R122). -/
def execStData (r : ByteRec) (s : State) : Outcome :=
  s.withVersion fun v =>
    let left := s.remaining - 1
    .next ((({ s with remaining := left }.absorb v r.value).emitUnit
      { unitOf .dataByte r (byteFlags r) with sequenceIndex := s.bodyLen - left }).goto
        (if s.remaining = 1 then .crcByte1 else .dataByte))

/-- `ST.CRC1(r)` (42 R118). -/
def execStCrc1 (r : ByteRec) (s : State) : Outcome :=
  .next (({ s with crcB1 := r.value }.emitUnit (unitOf .crcByte1 r (byteFlags r))).goto .crcByte2)

/-- `ST.CRC2(r)`: a mismatch changes the flags only (42 R119). -/
def execStCrc2 (r : ByteRec) (s : State) : Outcome :=
  s.withVersion fun v =>
    let emitted := s.emitUnit (unitOf .crcByte2 r (crc2Flags r (crcMismatch s v r.value)))
    .next
      (if expectAck s v s.id1 s.id2 then
        { emitted with ackAccept := acceptedValue s v }.goto .ackByte
      else (emitted.goto .noFrame).emit .commit)

/-- `ST.ACK(r)` (42 R120). -/
def execStAck (r : ByteRec) (s : State) : Outcome :=
  .next (((s.emitUnit (unitOf .ackByte r (ackFlags r s.ackAccept))).goto .noFrame).emit .commit)

/-- `MISSING_BYTE(r)` (42 R126). -/
def execMissingByte (r : BreakFieldRec) (s : State) : Outcome := .next (s.enterMissingByte r)

end Sys2Proof.Machine
end

