-- ==== Sys2Proof/Machine/WireOps.lean ====
section
/-! DEFINITION. The two wire operations: the break-field scanner (spec 40_break_scanner.md R90 to R92) and the
byte deserializer (41_byte_deserializer.md R100 to R102). -/

namespace Sys2Proof.Machine

/-- The marker of a sampled bit (30 R73). -/
def bitMarker (b : Bool) : MarkerKind := if b then .bitOne else .bitZero

/-! BRK_SCAN. -/

/-- What the search loop of `BRK_SCAN` ends with: the run's length in bits and the toggling flag. -/
structure Found where
  bits : Nat
  toggling : Bool
deriving DecidableEq, Repr

/-- The search loop of `BRK_SCAN` (40 R90), the cursor ending on the first low sample of the qualifying run.
Each turn moves the cursor forward, so a turn for every sample is enough; the count is only the recursion's
bound. -/
def brkSearch (samples : List Sample) (spb minBrk : Nat) : Nat → Bool → Cursor → Wire Found
  | 0, _, c => .exhausted c
  | turns + 1, toggling, c =>
    (advanceToNextEdge samples c).bind fun _ c =>
    (level samples c).bind fun high c =>
    (if high then
        advanceToNextEdge samples (if toggling then c else c.mark .errToggling)
      else .done () c).bind fun _ c =>
    (samplesUntilNextEdge samples c).bind fun d c =>
    if minBrk ≤ rnd spb d then .done { bits := rnd spb d, toggling := toggling || high } c
    else brkSearch samples spb minBrk turns (toggling || high) c

/-- The marker loop of `BRK_SCAN`: the level at the middle of each of `n` bits (40 R90). -/
def brkMarks (samples : List Sample) (spb : Nat) : Nat → Cursor → Wire Unit
  | 0, c => .done () c
  | n + 1, c =>
    (level samples c).bind fun b c =>
    (advance samples spb (c.mark (bitMarker b))).bind fun _ c =>
    brkMarks samples spb n c

/-- The end of `BRK_SCAN`, from the middle of the stop bit: half a bit on, or to just before the next edge
(40 R90). -/
def brkStop (p : Config) (samples : List Sample) (spb : Nat) (c : Cursor) : Wire Bool :=
  (level samples c).bind fun high c =>
  let c := c.mark (if high then .stopBit else .errFraming)
  (samplesUntilNextEdge samples c).bind fun d2 c =>
  if half p spb < d2 then (advance samples (half p spb) c).bind fun _ c => .done (!high) c
  else
    (advance samples (d2 - 1) c).bind fun _ c =>
    .done (!high) (if d2 < half p spb then c.mark .stopShort else c)

/-- `BRK_SCAN()` (40 R90). -/
def brkScan (p : Config) (samples : List Sample) (spb : Nat) (v : Version) (c : Cursor) : Wire BreakRec :=
  (brkSearch samples spb (p.minBrk.get v) (samples.length + 1) false c).bind fun found c =>
  let start := c.pos
  (advance samples (half p spb) c).bind fun _ c =>
  (brkMarks samples spb found.bits c).bind fun _ c =>
  (brkStop p samples spb c).bind fun ferr c =>
  .done
    { value := 0x00, startPos := start, endPos := c.pos, bits := found.bits,
      toggling := found.toggling, ferr } c

/-! BYTE_READ. -/

/-- `value[i] <- b`. -/
def setBit (value : Byte) (i : Nat) (b : Bool) : Byte :=
  if b then value ||| (1#8 <<< i) else value &&& ~~~(1#8 <<< i)

/-- The bit of the value that the `i`-th data bit in time goes to (20 R56, 41 R100). -/
def dataIndex (p : Config) (v : Version) (i : Nat) : Nat := if p.lsbFirst.get v then i else 7 - i

/-- The data loop of `BYTE_READ` with `n` bits to go; the next is bit `8 - n` in time (41 R100). -/
def readBits (p : Config) (samples : List Sample) (spb : Nat) (v : Version) : Nat → Byte → Cursor → Wire Byte
  | 0, value, c => .done value c
  | n + 1, value, c =>
    (advance samples spb c).bind fun _ c =>
    (level samples c).bind fun b c =>
    readBits p samples spb v n (setBit value (dataIndex p v (7 - n)) b) (c.mark (bitMarker b))

/-- The start of `BYTE_READ`: the next falling edge, after a resynchronisation if the line was low; the flag
is `ferr` (41 R100). -/
def byteStart (samples : List Sample) (c : Cursor) : Wire Bool :=
  (advanceToNextEdge samples c).bind fun _ c =>
  (level samples c).bind fun high c =>
  (if high then advanceToNextEdge samples (c.mark .errFraming) else .done () c).bind fun _ c =>
  .done high c

/-- The outcome "a standard framing error" (41 R100, R101), at the sample where the cursor is. -/
def framingError (value : Byte) (start : Nat) (c : Cursor) : Wire ReadResult :=
  .done (.byte { value, startPos := start, endPos := c.pos, ferr := true }) (c.mark .errFraming)

/-- A low stop bit after eight data bits: the break conditions (a), (b), (c) (41 R100). The next edge is
asked for whatever the data bits are: "a low-stop byte with no later edge ends the session as Exhausted
without being emitted" (70 R202; log 23). -/
def byteLowStop (p : Config) (samples : List Sample) (spb : Nat) (v : Version) (value : Byte) (start : Nat) (ferr : Bool)
    (c : Cursor) : Wire ReadResult :=
  (samplesUntilNextEdge samples c).bind fun d c =>
  if value = 0x00 ∧ p.xExtra.get v * spb < d then
    (advanceToNextEdge samples c).bind fun _ c =>
    let re := c.pos
    (samplesUntilNextEdge samples c).bind fun d c =>
    if half p spb < d then
      (advance samples (half p spb) c).bind fun _ c =>
      .done (.breakField { startPos := start, endPos := c.pos, bits := rnd spb (re - start), ferr }) c
    else framingError value start c
  else framingError value start c

/-- `BYTE_READ()` (41 R100). -/
def byteRead (p : Config) (samples : List Sample) (spb : Nat) (v : Version) (c : Cursor) : Wire ReadResult :=
  (byteStart samples c).bind fun ferr c =>
  let start := c.pos
  (advance samples (half p spb) c).bind fun _ c =>
  (readBits p samples spb v 8 0x00 (c.mark .startBit)).bind fun value c =>
  (advance samples spb c).bind fun _ c =>
  (level samples c).bind fun high c =>
  if high then
    .done (.byte { value, startPos := start, endPos := c.pos, ferr }) (c.mark .stopBit)
  else byteLowStop p samples spb v value start ferr c

/-! The meanings. -/

/-- `BRK_SCAN`: the record goes to the caller (40 R90). -/
def execBrkScan (s : State) : Outcome :=
  s.withTiming fun v spb =>
    s.onWire (brkScan s.config s.samples spb v s.cursor) fun u s => .next (s.returns (.brk u))

/-- `BYTE_READ`: the tagged result goes to the caller (41 R100). -/
def execByteRead (s : State) : Outcome :=
  s.withTiming fun v spb =>
    s.onWire (byteRead s.config s.samples spb v s.cursor) fun r s => .next (s.returns (.read r))

end Sys2Proof.Machine
end

