-- ==== Sys2Proof/Machine/Session.lean ====
section
/-! DEFINITION. The session operations and the decode-unit step (spec 42_frame_fsm.md R110, R127 to R129). -/

namespace Sys2Proof.Machine

/-- The data registers as a session begins with them (42 R127). -/
def State.beginSession (s : State) : State :=
  { s with
    state := .noFrame, pos := 0, id1 := 0, id2 := 0, bodyLen := 0, remaining := 0
    crc := s.config.crcInit, crcPar := false, crcHold := 0, crcB1 := 0, ackAccept := 0
    pendingBreak := false, lastEnd := 0, brkBits := 0
    mode := .run, waiting := false }

/-- `SESSION.START`: ignored outside IDLE, without effect on an illegal configuration (42 R127; log 11). -/
def execSessionStart (s : State) : Outcome :=
  match s.mode with
  | .idle => if s.legalConfig then .next s.beginSession else .next s
  | .run => .next s
  | .done => .next s

/-- `SESSION.CANCEL` (42 R128). -/
def execSessionCancel (s : State) : Outcome := .next (s.terminate .cancelled)

/-- `SESSION.EXHAUST` (42 R129). -/
def execSessionExhaust (s : State) : Outcome := .next (s.terminate .exhausted)

/-- A state that consumes a break: the pending one, without reading a sample, or a scan (42 R110). -/
def State.withBreak (s : State) (k : BreakRec → State → Outcome) : Outcome :=
  if s.pendingBreak then k s.pendingRec s.clearPending
  else s.withTiming fun v spb => s.onWire (brkScan s.config s.samples spb v s.cursor) k

/-- What a byte state does with the result of BYTE_READ (42 R110). -/
def onRead (k : ByteRec → State → Outcome) (r : ReadResult) (s : State) : Outcome :=
  match r with
  | .byte b => k b s
  | .breakField f => execMissingByte f s

/-- A state that consumes a byte (42 R110). -/
def State.withByte (s : State) (k : ByteRec → State → Outcome) : Outcome :=
  s.withTiming fun v spb => s.onWire (byteRead s.config s.samples spb v s.cursor) (onRead k)

/-- The wire operation and the state step that `state` selects (42 R110, 30 R70). -/
def unitStep (s : State) : Outcome :=
  match s.state with
  | .noFrame => s.withBreak execStNoframe
  | .headerBreak => s.withBreak execStHeaderbreak
  | .headerId1 => s.withByte execStHeaderid1
  | .headerId2 => s.withByte execStHeaderid2
  | .instructionByte1 => s.withByte execStInstr1
  | .instructionByte2 => s.withByte execStInstr2
  | .dataByte => s.withByte execStData
  | .crcByte1 => s.withByte execStCrc1
  | .crcByte2 => s.withByte execStCrc2
  | .ackByte => s.withByte execStAck

/-- What a completed wire operation hands on, under a legal configuration; none where the stream ends or
waits, or the configuration is refused. -/
def State.wireDone {α : Type} (s : State) (w : Nat → Version → Cursor → Wire α) (f : α → WireUnit) :
    Option (WireUnit × State) :=
  match s.protocol with
  | none => none
  | some v =>
    if 2 ≤ s.spb then
      match w s.spb v s.cursor with
      | .done a c => some (f a, s.atCursor c)
      | .exhausted _ => none
    else none

/-- The result of BYTE_READ as a unit. -/
def ReadResult.toUnit : ReadResult → WireUnit
  | .byte r => .byte r
  | .breakField f => .breakField f

/-- The operand side of a step, as the decoder takes it: the unit, and the state the state step starts from
(42 R110). -/
def wireUnit (s : State) : Option (WireUnit × State) :=
  match s.state with
  | .noFrame | .headerBreak =>
    if s.pendingBreak then some (.brk s.pendingRec, s.clearPending)
    else s.wireDone (brkScan s.config s.samples) .brk
  | .headerId1 | .headerId2 | .instructionByte1 | .instructionByte2 | .dataByte
  | .crcByte1 | .crcByte2 | .ackByte => s.wireDone (byteRead s.config s.samples) ReadResult.toUnit

/-- `ITER` (42 R110): no step outside RUN; the cancellation poll, once per step and before any sample is
read, so not again while a wire operation waits for samples (log 25); then the unit. -/
def execIter (s : State) : Outcome :=
  match s.mode with
  | .idle => .next s
  | .done => .next s
  | .run => if s.cancel && !s.waiting then execSessionCancel s else unitStep s

end Sys2Proof.Machine
end

