-- ==== Sys2Proof/Machine/Dispatch.lean ====
section
/-! DEFINITION. Which meaning each operation has: one arm per constructor of Instr. -/

namespace Sys2Proof.Machine

/-- One operation performed on the state. -/
def exec (i : Instr) (s : State) : Host.Outcome State Fault Refusal :=
  match i with
  | .iter => Sys2Proof.Machine.execIter s
  | .brkScan => Sys2Proof.Machine.execBrkScan s
  | .byteRead => Sys2Proof.Machine.execByteRead s
  | .stNoframe u => Sys2Proof.Machine.execStNoframe u s
  | .stHeaderbreak u => Sys2Proof.Machine.execStHeaderbreak u s
  | .stHeaderid1 r => Sys2Proof.Machine.execStHeaderid1 r s
  | .stHeaderid2 r => Sys2Proof.Machine.execStHeaderid2 r s
  | .stInstr1 r => Sys2Proof.Machine.execStInstr1 r s
  | .stInstr2 r => Sys2Proof.Machine.execStInstr2 r s
  | .stData r => Sys2Proof.Machine.execStData r s
  | .stCrc1 r => Sys2Proof.Machine.execStCrc1 r s
  | .stCrc2 r => Sys2Proof.Machine.execStCrc2 r s
  | .stAck r => Sys2Proof.Machine.execStAck r s
  | .missingByte r => Sys2Proof.Machine.execMissingByte r s
  | .sessionStart => Sys2Proof.Machine.execSessionStart s
  | .sessionCancel => Sys2Proof.Machine.execSessionCancel s
  | .sessionExhaust => Sys2Proof.Machine.execSessionExhaust s
  | .len version id1 id2 => Sys2Proof.Machine.execLen version id1 id2 s
  | .lenV2F0C0 version id1 id2 => Sys2Proof.Machine.execLenV2F0C0 version id1 id2 s
  | .lenV2F0C1 version id1 id2 => Sys2Proof.Machine.execLenV2F0C1 version id1 id2 s
  | .lenV2F0C2 version id1 id2 => Sys2Proof.Machine.execLenV2F0C2 version id1 id2 s
  | .lenV2F0C3 version id1 id2 => Sys2Proof.Machine.execLenV2F0C3 version id1 id2 s
  | .lenV2F0C4 version id1 id2 => Sys2Proof.Machine.execLenV2F0C4 version id1 id2 s
  | .lenV2F0C5 version id1 id2 => Sys2Proof.Machine.execLenV2F0C5 version id1 id2 s
  | .lenV2F0C6 version id1 id2 => Sys2Proof.Machine.execLenV2F0C6 version id1 id2 s
  | .lenV2F0C7 version id1 id2 => Sys2Proof.Machine.execLenV2F0C7 version id1 id2 s
  | .lenV2F1C0 version id1 id2 => Sys2Proof.Machine.execLenV2F1C0 version id1 id2 s
  | .lenV2F1C1 version id1 id2 => Sys2Proof.Machine.execLenV2F1C1 version id1 id2 s
  | .lenV2F1C2 version id1 id2 => Sys2Proof.Machine.execLenV2F1C2 version id1 id2 s
  | .lenV2F1C3 version id1 id2 => Sys2Proof.Machine.execLenV2F1C3 version id1 id2 s
  | .lenV2F1C4 version id1 id2 => Sys2Proof.Machine.execLenV2F1C4 version id1 id2 s
  | .lenV2F1C5 version id1 id2 => Sys2Proof.Machine.execLenV2F1C5 version id1 id2 s
  | .lenV2F1C6 version id1 id2 => Sys2Proof.Machine.execLenV2F1C6 version id1 id2 s
  | .lenV2F1C7 version id1 id2 => Sys2Proof.Machine.execLenV2F1C7 version id1 id2 s
  | .lenV1F0 id1 id2 => Sys2Proof.Machine.execLenV1F0 id1 id2 s
  | .lenV1xF0 id1 id2 => Sys2Proof.Machine.execLenV1xF0 id1 id2 s
  | .lenV1F1 id1 id2 => Sys2Proof.Machine.execLenV1F1 id1 id2 s
  | .lenV1xF1 id1 id2 => Sys2Proof.Machine.execLenV1xF1 id1 id2 s
  | .instrV2 id1 id2 => Sys2Proof.Machine.execInstrV2 id1 id2 s
  | .crcReset => Sys2Proof.Machine.execCrcReset s
  | .crcAdd c b => Sys2Proof.Machine.execCrcAdd c b s
  | .crcAbsorbV1 b => Sys2Proof.Machine.execCrcAbsorbV1 b s
  | .crcAbsorbV2 b => Sys2Proof.Machine.execCrcAbsorbV2 b s
  | .crcResult => Sys2Proof.Machine.execCrcResult s
  | .crcRxcheck b2 => Sys2Proof.Machine.execCrcRxcheck b2 s
  | .ackpolV1 id1 id2 => Sys2Proof.Machine.execAckpolV1 id1 id2 s
  | .ackpolV1x id1 id2 => Sys2Proof.Machine.execAckpolV1x id1 id2 s
  | .ackpolV2 id1 id2 => Sys2Proof.Machine.execAckpolV2 id1 id2 s
  | .ackEnabled node => Sys2Proof.Machine.execAckEnabled node s

end Sys2Proof.Machine
end

