-- ==== Sys2Proof/Machine/HostPort.lean ====
section
/-! DEFINITION. What the environment can do to the framer between two of its steps: register writes and reads,
the CTRL strobes, reset, and the sample source (spec 10_state.md R20 to R25, 60_exceptions.md R184, R187,
70_reset_and_hazards.md R190, R191, R200, 20_memory.md R47). -/

namespace Sys2Proof.Machine

/-- The code of `STATUS.mode` (10 R25). -/
def Mode.code : Mode → BitVec 2
  | .idle => 0
  | .run => 1
  | .done => 2

/-- The code of `STATUS.done_cause` (10 R25). -/
def DoneCause.code : DoneCause → BitVec 1
  | .cancelled => 0
  | .exhausted => 1

/-- A control-register write takes effect in IDLE; "a write in mode RUN or DONE is ignored" (10 R20,
70 R200). -/
def State.whileIdle (s written : State) : State :=
  match s.mode with
  | .idle => written
  | .run => s
  | .done => s

/-- Reset in any mode (70 R190): every register of the framer at its reset value, no sink call; the
parameters and the environment stay as they are (log 19), and the count of free values taken goes on (log 17). -/
def State.resetFramer (s : State) : State :=
  { State.resetWith s.config with
    samples := s.samples, streamEnded := s.streamEnded, sink := s.sink, inbox := s.inbox
    freeIndex := s.freeIndex }

/-- A data register's value when the mode lets the host read it: "All data registers are readable by the host in
DONE and IDLE" (60 R187). -/
def State.readable (s : State) (value : Nat) : Option Nat :=
  match s.mode with
  | .idle => some value
  | .run => none
  | .done => some value

/-- As `readable`, for the registers that are unspecified while `pending_break` = 0 and must not be read
then (10 R18). -/
def State.readablePending (s : State) (value : Nat) : Option Nat :=
  if s.pendingBreak then s.readable value else none

/-- A host read. Control registers answer in every mode: "every read of a control register during a session
returns the value it had at START" (20 R58). Data registers and the CANCEL request answer in IDLE and DONE, and
`STATUS` in every mode (60 R187; log 20). It has no side effect (20 R59). -/
def hostRead (r : HostReg) (s : State) : Option Nat :=
  match r with
  | .state => s.readable s.state.code.toNat
  | .pos => s.readable s.pos
  | .id1 => s.readable s.id1.toNat
  | .id2 => s.readable s.id2.toNat
  | .bodyLen => s.readable s.bodyLen.toNat
  | .remaining => s.readable s.remaining.toNat
  | .crc => s.readable s.crc.toNat
  | .crcPar => s.readable s.crcPar.toNat
  | .crcHold => s.readable s.crcHold.toNat
  | .crcB1 => s.readable s.crcB1.toNat
  | .ackAccept => s.readable s.ackAccept.toNat
  | .pendingBreak => s.readable s.pendingBreak.toNat
  | .pbStart => s.readablePending s.pbStart
  | .pbEnd => s.readablePending s.pbEnd
  | .pbBits => s.readablePending s.pbBits
  | .pbFerr => s.readablePending s.pbFerr.toNat
  | .lastEnd => s.readable s.lastEnd
  | .brkBits => s.readable s.brkBits
  | .version => some s.version.toNat
  | .spb => some s.spb
  | .ackEn => some s.ackEn.toNat
  | .ackValue => some s.ackValue.toNat
  | .nodeAck a => some (nodeEntry s.nodeAck a).toByte.toNat
  | .statusMode => some s.mode.code.toNat
  | .doneCause => some s.doneCause.code.toNat
  | .cancel => s.readable s.cancel.toNat

/-- The operation of the framer that a host action asks for, if it asks for one: START (10 R25) and the
framer's own turn. -/
def HostReq.operation : HostReq → Option Instr
  | .turn => some .iter
  | .start => some .sessionStart
  | .writeVersion _ => none
  | .writeSpb _ => none
  | .writeAckEn _ => none
  | .writeAckValue _ => none
  | .writeNodeAck _ _ => none
  | .cancel => none
  | .reset => none
  | .read _ => none
  | .load _ _ => none
  | .deliver _ => none
  | .endStream => none

/-- Every other action of the environment. `turn` and `start` are operations and do nothing here. A write of
`SPB` is truncated to the register's `POS_W` bits (00 R7), and there is no entry past the table's end to write
(20 R59; log 18). -/
def hostAct (r : HostReq) (s : State) : State :=
  match r with
  | .turn => s
  | .start => s
  | .writeVersion v => s.whileIdle { s with version := v }
  | .writeSpb n => s.whileIdle { s with spb := n % 2 ^ s.config.posW }
  | .writeAckEn b => s.whileIdle { s with ackEn := b }
  | .writeAckValue b => s.whileIdle { s with ackValue := b }
  | .writeNodeAck a e =>
    if a.toNat < s.config.nodeAckSize then
      s.whileIdle { s with nodeAck := Memory.write s.nodeAck a.toNat e.toByte }
    else s
  | .cancel => { s with cancel := true }
  | .reset => s.resetFramer
  | .read reg => { s with result := .register (hostRead reg s) }
  | .load samples ended => s.whileIdle { s with samples := samples, streamEnded := ended }
  | .deliver more => if s.streamEnded then s else { s with samples := s.samples ++ more }
  | .endStream => { s with streamEnded := true }

end Sys2Proof.Machine
end

