-- ==== Sys2Proof/Machine/Stimulus.lean ====
section
/-! DEFINITION. The stimulus notation (spec 30_encoding.md R80, R81): waveforms written as statements, each
appending samples to the stream. -/

namespace Sys2Proof.Machine

/-- The stimulus statements (30 R80). `BRK n` is `brk n 1`; `BYTE v` is `byte v true`. -/
inductive Stim where
  | idle (n : Nat)
  | idles (n : Nat)
  | low (n : Nat)
  | lows (n : Nat)
  | brk (n s : Nat)
  | byte (v : Byte) (stop : Bool)
deriving DecidableEq, Repr

/-- `n` samples of one level. -/
def line (n : Nat) (b : Sample) : List Sample := List.replicate n b

/-- `b_k`, the `k`-th data bit of a byte in time order (30 R80, 20 R56). -/
def dataBit (p : Config) (v : Version) (value : Byte) (k : Nat) : Sample :=
  if p.lsbFirst.get v then value.getLsbD k else value.getLsbD (7 - k)

/-- The data bits from the `k`-th on, `n` of them, each for one bit period. -/
def dataWave (p : Config) (v : Version) (spb : Nat) (value : Byte) : Nat → Nat → List Sample
  | 0, _ => []
  | n + 1, k => line spb (dataBit p v value k) ++ dataWave p v spb value n (k + 1)

/-- The byte frame on the line (30 R62, R80). -/
def byteWave (p : Config) (v : Version) (spb : Nat) (value : Byte) (stop : Bool) : List Sample :=
  line spb false ++ dataWave p v spb value 8 0 ++ line spb stop

/-- The samples a statement appends (30 R80). -/
def Stim.wave (p : Config) (v : Version) (spb : Nat) : Stim → List Sample
  | .idle n => line (n * spb) true
  | .idles n => line n true
  | .low n => line (n * spb) false
  | .lows n => line n false
  | .brk n s => line (n * spb) false ++ line (s * spb) true
  | .byte value stop => byteWave p v spb value stop

/-- The waveform of a listing. -/
def waveform (p : Config) (v : Version) (spb : Nat) : List Stim → List Sample
  | [] => []
  | st :: rest => st.wave p v spb ++ waveform p v spb rest

/-- Bytes in the order the V2 pairing adds them: second of each pair first (30 R81, 44 R152). -/
def pairOrder : List Byte → List Byte
  | a :: b :: rest => b :: a :: pairOrder rest
  | [a] => [a]
  | [] => []

/-- The high-order half of a CRC. -/
def hiByte (c : Word) : Byte := c.extractLsb' 8 8

/-- The low-order half of a CRC. -/
def loByte (c : Word) : Byte := c.extractLsb' 0 8

/-- `BYTE` statements with a high stop bit. -/
def bytesStim (bytes : List Byte) : List Stim := bytes.map fun b => .byte b true

/-- `PKT.V1 id1, id2, d1..dn`, for V1Extended too (30 R81). -/
def pktV1 (p : Config) (id1 id2 : Byte) (data : List Byte) : List Stim :=
  let c := crc16 p (id1 :: id2 :: data)
  .brk 13 1 :: bytesStim (id1 :: id2 :: data ++ [hiByte c, loByte c])

/-- `PKT.V2 id1, id2, d1..dn` (30 R81). -/
def pktV2 (p : Config) (id1 id2 : Byte) (data : List Byte) : List Stim :=
  let c := crc16 p (pairOrder (id1 :: id2 :: data))
  .brk 11 1 :: bytesStim (id1 :: id2 :: data ++ [loByte c, hiByte c])

/-- `PKT.V2I id1, id2, i1, i2, d1..dn` (30 R81): the instruction bytes stand before the data bytes. -/
def pktV2I (p : Config) (id1 id2 i1 i2 : Byte) (data : List Byte) : List Stim :=
  pktV2 p id1 id2 (i1 :: i2 :: data)

/-- `ACK v` (30 R81). -/
def ackStim (v : Byte) : List Stim := [.idle 2, .byte v true]

end Sys2Proof.Machine
end

