-- ==== Sys2Proof/Machine/Fetch.lean ====
section
/-! DEFINITION. How a table word is put where the framer selects its operation from (log 15): "There is no
instruction memory: the operation the framer performs next is chosen by `state`, not fetched" (10 R28). -/

namespace Sys2Proof.Machine

/-- A session in RUN whose next action is the framer's turn, with the cursor at the start of `samples`,
which are all there is. Two samples a bit period, the least that START accepts (10 R22). -/
def State.inSession (s : State) (version : BitVec 2) (samples : List Sample) : State :=
  { s with
    inbox := .turn :: s.inbox, mode := .run, cancel := false, waiting := false
    version := version, spb := 2, pos := 0, samples := samples, streamEnded := true }

/-- One byte frame on an idle line, at two samples a bit period. -/
def oneFrame (p : Config) (version : BitVec 2) (value : Byte) : List Sample :=
  waveform p ((Version.ofCode p version).getD .v2) 2 [.idle 1, .byte value true, .idle 1]

/-- Ten symbols on an idle line, the leftmost first, at two samples a bit period (30 R62). -/
def symbolWave (f : BitVec 10) : Nat → List Sample
  | 0 => line 2 true
  | n + 1 => line 2 (f.getLsbD n) ++ symbolWave f n

/-- The version to run a state word under: the register's, or V2 where it holds a reserved code. -/
def State.legalVersion (s : State) : BitVec 2 :=
  if s.protocol.isSome then s.version else s.config.versionCode.v2

/-- A STATE word: the `state` register holds it. States 0 and 1 find an all-zero break pending; the others
find one byte frame of value 0x00 on the line. No state has a reserved code, and nothing is placed then. -/
def State.placeState (s : State) (w : BitVec 4) : State :=
  match FrameState.ofCode w with
  | none => s
  | some st =>
    { s.inSession s.legalVersion (oneFrame s.config s.legalVersion 0x00) with
      state := st, pendingBreak := decide (w.toNat < 2)
      pbStart := 0, pbEnd := 0, pbBits := 0, pbFerr := false }

/-- A header word: `VERSION` and `id1` hold its upper bits, the framer is in `HeaderID2`, and the byte frame
of its low byte is on the line (30 R76). -/
def State.placeHeader (s : State) (h : BitVec 18) : State :=
  let version := h.extractLsb' 16 2
  { s.inSession version (oneFrame s.config version (h.extractLsb' 0 8)) with
    state := .headerId2, pendingBreak := false, id1 := h.extractLsb' 8 8 }

/-- A ten-symbol frame: the symbols are on the line and the framer is in a byte state. -/
def State.placeFrame (s : State) (f : BitVec 10) : State :=
  { s.inSession s.legalVersion (line 2 true ++ symbolWave f 10) with
    state := .headerId1, pendingBreak := false }

/-- A table word placed by its width, as `decodeTableWord` reads it. -/
def State.placeWord (s : State) (nbits w : Nat) : State :=
  if nbits ≤ 8 then s.placeState (BitVec.ofNat 4 w)
  else if nbits ≤ 16 then s.placeFrame (BitVec.ofNat 10 w)
  else s.placeHeader (BitVec.ofNat 18 w)

end Sys2Proof.Machine
end

