-- ==== Sys2Proof/Machine/Step.lean ====
section
/-! DEFINITION. One step of the machine: the oldest pending action of the environment, or with none pending the
framer's own step (spec 42_frame_fsm.md R110; log 1). -/

namespace Sys2Proof.Machine

/-- One step. -/
def step (s : State) : Host.Outcome State Fault Refusal :=
  match s.inbox with
  | [] => exec .iter s
  | r :: rest =>
    match r.operation with
    | some i => exec i { s with inbox := rest }
    | none => .next (hostAct r { s with inbox := rest })

/-- The state with a table word placed where the next step selects its operation from (log 15). -/
def State.withFetchWord (s : State) (nbits w : Nat) : State := s.placeWord nbits w

end Sys2Proof.Machine
end

