-- ==== Sys2Proof/Machine/Sink.lean ====
section
/-! DEFINITION. What the sink makes of the calls (spec 20_memory.md R50 to R55, 10_state.md R31) and the event
words of a hardware sink port (30_encoding.md R72, R73). -/

namespace Sys2Proof.Machine

/-- The sink's side of the port. -/
structure SinkView where
  /-- The frames since the last commit or cancel, invisible until a commit (20 R51, R53). -/
  openPacket : List FrameUnit
  /-- The packets made visible, oldest first (20 R52, 10 R31). -/
  packets : List (List FrameUnit)
  /-- The missing-byte regions, part of no packet (20 R55). -/
  missing : List (Nat × Nat)
  /-- The markers, part of no packet (20 R54). -/
  markers : List (Nat × MarkerKind)
deriving DecidableEq, Repr

/-- The sink before the first call (70 R191 item 6). -/
def SinkView.empty : SinkView := { openPacket := [], packets := [], missing := [], markers := [] }

/-- The effect of one call. A commit of an empty open packet "is legal and has no visible effect"
(20 R52). -/
def SinkView.call (v : SinkView) : SinkCall → SinkView
  | .emitFrame u => { v with openPacket := v.openPacket ++ [u] }
  | .commit =>
    { v with
      packets := match v.openPacket with
        | [] => v.packets
        | _ :: _ => v.packets ++ [v.openPacket]
      openPacket := [] }
  | .cancel => { v with openPacket := [] }
  | .emitMarker p k => { v with markers := v.markers ++ [(p, k)] }
  | .emitMissingByte a b => { v with missing := v.missing ++ [(a, b)] }

/-- What the sink holds after a sequence of calls. -/
def sinkView (calls : List SinkCall) : SinkView := calls.foldl SinkView.call SinkView.empty

/-! Event words (30 R72). -/

/-- The code of a marker kind (30 R73). -/
def MarkerKind.code : MarkerKind → BitVec 3
  | .bitZero => 0
  | .bitOne => 1
  | .startBit => 2
  | .stopBit => 3
  | .errFraming => 4
  | .errToggling => 5
  | .stopShort => 6

/-- One field of an event word's payload. -/
structure EventField where
  width : Nat
  value : Nat
deriving DecidableEq, Repr

/-- A position field: `POS_W` bits (30 R72). -/
def posField (p : Config) (n : Nat) : EventField := { width := p.posW, value := n % 2 ^ p.posW }

/-- The kind of a call's event word (30 R72). -/
def SinkCall.kind : SinkCall → BitVec 3
  | .emitFrame _ => 0
  | .commit => 1
  | .cancel => 2
  | .emitMarker _ _ => 3
  | .emitMissingByte _ _ => 4

/-- The payload fields in the order the table lists them (30 R72; log 28). -/
def SinkCall.payload (p : Config) : SinkCall → List EventField
  | .emitFrame u =>
    [{ width := 4, value := u.state.code.toNat }, { width := 8, value := u.rawValue.toNat },
     { width := 8, value := u.sequenceIndex.toNat }, { width := 5, value := u.flags.code.toNat },
     posField p u.startPos, posField p u.endPos]
  | .commit => []
  | .cancel => []
  | .emitMarker n k => [posField p n, { width := 3, value := k.code.toNat }]
  | .emitMissingByte a b => [posField p a, posField p b]

end Sys2Proof.Machine
end

