-- ==== Sys2Proof/Safety.lean ====
section
/-! DEFINITION. What a safe state and a safe run are, in the terms the claims use: the invariants the spec's rules
imply (10_state.md R11, R14, R18, R22, R24, R32, 43 R144, 44 R155, 60 R178), which part of the state is whose, and
sequences of operations. -/

namespace Sys2Proof.Machine

/-! Kinds of sink call. -/

/-- The call is a marker, which no packet holds (20 R54). -/
def SinkCall.isMarker : SinkCall → Bool
  | .emitFrame _ => false
  | .commit => false
  | .cancel => false
  | .emitMarker _ _ => true
  | .emitMissingByte _ _ => false

/-- The calls that are no markers. -/
def decodeCalls (calls : List SinkCall) : List SinkCall := calls.filter fun c => !c.isMarker

/-! Parts of the state. -/

/-- The control registers: the host's to write, in IDLE only (10 R20). -/
structure Controls where
  version : BitVec 2
  spb : Nat
  ackEn : Bool
  ackValue : Byte
  nodeAck : List Host.Cell
deriving DecidableEq, Repr

/-- The control registers of a state. -/
def State.controls (s : State) : Controls :=
  { version := s.version, spb := s.spb, ackEn := s.ackEn, ackValue := s.ackValue, nodeAck := s.nodeAck }

/-- The part of the environment no operation of the framer writes: the stream and the host's queue
(10 R28, 20 R41). -/
structure Surroundings where
  samples : List Sample
  streamEnded : Bool
  inbox : List HostReq
deriving DecidableEq, Repr

/-- That part of a state. -/
def State.surroundings (s : State) : Surroundings :=
  { samples := s.samples, streamEnded := s.streamEnded, inbox := s.inbox }

/-- The next action is a reset (70 R190). -/
def State.nextIsReset (s : State) : Bool :=
  match s.inbox with
  | [] => false
  | r :: _ => r == .reset

/-! Invariants. -/

/-- `crc_par` as the state of a session that absorbs in pairs determines it (44 R152, R155); between packets it is not
determined. -/
def pairPhase (s : State) : Option Bool :=
  match s.state with
  | .noFrame => none
  | .headerBreak => none
  | .headerId1 => some false
  | .headerId2 => some true
  | .instructionByte1 => some false
  | .instructionByte2 => some true
  | .dataByte => some ((s.bodyLen - s.remaining).getLsbD 0)
  | .crcByte1 => some false
  | .crcByte2 => some false
  | .ackByte => some false

/-- What holds at every step boundary of a machine that has only taken steps. -/
structure SessionInv (s : State) : Prop where
  /-- The NODE_ACK table is in canonical form (10 R24). -/
  table : Memory.wf s.config.nodeAckSize s.nodeAck = true
  /-- `SPB` fits its `POS_W` bits (10 R22). -/
  spbFits : s.spb < 2 ^ s.config.posW
  /-- RUN is entered with a legal configuration only, which then does not change (42 R127, 10 R20). -/
  legal : s.mode = .run → s.protocol ≠ none ∧ 2 ≤ s.spb
  /-- `HeaderBreak` is no resting state (10 R11). -/
  resting : s.state ≠ .headerBreak
  /-- A pending break waits in `NoFrame` (42 R126, 60 R182). -/
  pending : s.pendingBreak = true → s.state = .noFrame
  /-- Body lengths are at most 128 (10 R14, 43 R144). -/
  length : s.bodyLen.toNat ≤ 128
  /-- At most the body remains (10 R14). -/
  counted : s.remaining.toNat ≤ s.bodyLen.toNat
  /-- The whole body remains while the instruction bytes are read (42 R114 to R116). -/
  fresh : s.state = .instructionByte1 ∨ s.state = .instructionByte2 → s.remaining = s.bodyLen
  /-- In `DataByte` a byte remains, so the count does not underflow (42 R117). -/
  dataLeft : s.state = .dataByte → 1 ≤ s.remaining.toNat
  /-- Instruction bytes are V2 only (42 R115). -/
  instrOnlyV2 : s.mode ≠ .idle → s.state = .instructionByte1 ∨ s.state = .instructionByte2 →
    s.protocol = some .v2
  /-- Every body length is even (43 R141 to R143). -/
  evenBody : s.bodyLen.toNat % 2 = 0
  /-- The pairing of a version that absorbs in pairs (V2 in 00 R5) is in step with the packet (44 R155). -/
  pairing : s.mode ≠ .idle → ∀ v, s.protocol = some v → s.config.crcPairs.get v = true →
    ∀ b, pairPhase s = some b → s.crcPar = b
  /-- A version that does not (V1 and V1Extended in 00 R5) never uses the pairing registers (44 R152). -/
  unpaired : s.mode ≠ .idle → ∀ v, s.protocol = some v → s.config.crcPairs.get v = false →
    s.crcPar = false ∧ s.crcHold = 0
  /-- The last unit ends at or before the cursor (42 R126). -/
  behind : s.lastEnd ≤ s.pos
  /-- So does a pending break (10 R18). -/
  pendingBehind : s.pendingBreak = true → s.pbEnd ≤ s.pos
  /-- A pending break ends at or after its start (10 R18). -/
  pendingOrdered : s.pendingBreak = true → s.pbStart ≤ s.pbEnd

/-- What every unit handed to the sink satisfies: a state other than `NoFrame` (10 R30), only the flags 60
R178 allows it, HeaderBreakExpected never (40 R91), sequence index 1 to 128 for a data byte and 0 for every
other unit (10 R30, 42 R122), the all-zero sentinel for a break (10 R30), and an end that is not before
its start. -/
def FrameUnit.sound (u : FrameUnit) : Prop :=
  u.state ≠ .noFrame ∧ u.flags.allowed u.state = true ∧ u.flags.headerBreakExpected = false ∧
    (u.state = .dataByte → 1 ≤ u.sequenceIndex.toNat ∧ u.sequenceIndex.toNat ≤ 128) ∧
    (u.state ≠ .dataByte → u.sequenceIndex = 0) ∧
    (u.state = .headerBreak → u.rawValue = 0x00) ∧ u.startPos ≤ u.endPos

/-- Every unit of a call sequence is sound. -/
def UnitsSound (calls : List SinkCall) : Prop := ∀ u, .emitFrame u ∈ calls → u.sound

/-! Packets as the sink sees them (10 R31, 20 R51 to R53, 30 R63). -/

/-- A unit of the second role may follow a unit of the first in one packet (30 R63). -/
def mayPrecede : FrameState → FrameState → Bool
  | .noFrame, _ => false
  | .headerBreak, b => b == .headerId1
  | .headerId1, b => b == .headerId2
  | .headerId2, b => b == .instructionByte1 || b == .dataByte || b == .crcByte1
  | .instructionByte1, b => b == .instructionByte2
  | .instructionByte2, b => b == .dataByte || b == .crcByte1
  | .dataByte, b => b == .dataByte || b == .crcByte1
  | .crcByte1, b => b == .crcByte2
  | .crcByte2, b => b == .ackByte
  | .ackByte, _ => false

/-- The roles in order from the role `a`, each allowed after the one before it, the last with `ok`. -/
def rolesFrom (ok : FrameState → Bool) : FrameState → List FrameState → Bool
  | a, [] => ok a
  | a, b :: rest => mayPrecede a b && rolesFrom ok b rest

/-- The roles of some units: a break field first, then each role allowed after the one before it, the last
with `ok`. -/
def packetRoles (ok : FrameState → Bool) (units : List FrameUnit) : Bool :=
  match units.map (·.state) with
  | [] => false
  | a :: rest => a == .headerBreak && rolesFrom ok a rest

/-- A whole packet: from its break field to the second CRC byte or the ACK byte (10 R31). -/
def wholePacket (units : List FrameUnit) : Bool := packetRoles (fun a => a == .crcByte2 || a == .ackByte) units

/-- A packet in progress that the next unit, of role `next`, may continue. -/
def openPacketFor (next : FrameState) (units : List FrameUnit) : Bool := packetRoles (mayPrecede · next) units

/-- Every packet the sink has made visible is whole, and what it holds open is the beginning of the packet
that `state` stands in: nothing between packets, and nothing before a session (70 R191 item 6). -/
def PacketInv (s : State) : Prop :=
  (∀ p ∈ (sinkView s.sink).packets, wholePacket p = true) ∧
    (if s.mode = .idle ∨ s.state = .noFrame ∨ s.state = .headerBreak then (sinkView s.sink).openPacket = []
      else openPacketFor s.state (sinkView s.sink).openPacket = true)

/-! Sequences. -/

/-- Operations performed one after another. -/
def execAll : List Instr → State → Outcome
  | [], s => .next s
  | i :: rest, s =>
    match exec i s with
    | .next t => execAll rest t
    | .fault r => .fault r
    | .refused r => .refused r

/-- Change the state of an outcome. -/
def mapNext (f : State → State) : Outcome → Outcome
  | .next s => .next (f s)
  | .fault r => .fault r
  | .refused r => .refused r

/-- The framer takes a step of its own that polls no cancellation: RUN, nothing pending from the host, and
`CTRL.CANCEL` clear (42 R110) or, the model's choice, a wire operation still waiting for samples, when the step goes
on without a second poll (log 25). -/
def State.stepping (s : State) : Prop :=
  s.mode = .run ∧ (s.cancel = false ∨ s.waiting = true) ∧ s.inbox = []

end Sys2Proof.Machine
end

