-- ==== Sys2Proof/Certificates/Slice0/Obligations.lean ====
section
/-! DEFINITION. The statements for the provers. Each docstring names the rule of spec/ it formalises; the listing
with titles, tiers and quotes is OBLIGATIONS.json. -/

open Sys2Proof Sys2Proof.Machine

/-! Reset and session control. -/

/-- 10 R33: the reset values the spec states, at the parameters of 00 R5, and SESSION.START writing the data
registers again with the same values, whatever the parameters. Nothing is said of `SPB`, `pb_*` and the `enable`
bits, whose reset value the spec leaves open. -/
def Obligations.ResetTableAndStart : Prop :=
  (State.reset.state = .noFrame ∧ State.reset.pos = 0 ∧ State.reset.id1 = 0x00 ∧ State.reset.id2 = 0x00 ∧
    State.reset.bodyLen = 0 ∧ State.reset.remaining = 0 ∧ State.reset.crc = 0xFFFF ∧
    State.reset.crcPar = false ∧ State.reset.crcHold = 0x00 ∧ State.reset.crcB1 = 0x00 ∧
    State.reset.ackAccept = 0x00 ∧ State.reset.pendingBreak = false ∧ State.reset.lastEnd = 0 ∧
    State.reset.brkBits = 0 ∧ State.reset.version = 2 ∧ State.reset.ackEn = false ∧
    State.reset.ackValue = 0x7E ∧ (∀ a, (nodeEntry State.reset.nodeAck a).present = false) ∧
    State.reset.mode = .idle ∧ State.reset.doneCause = .cancelled ∧ State.reset.cancel = false) ∧
  ∀ s : State, s.mode = .idle → s.protocol ≠ none → 2 ≤ s.spb →
    let start := State.resetWith s.config
    ∃ t, exec .sessionStart s = .next t ∧ t.state = start.state ∧ t.pos = start.pos ∧
      t.id1 = start.id1 ∧ t.id2 = start.id2 ∧ t.bodyLen = start.bodyLen ∧ t.remaining = start.remaining ∧
      t.crc = start.crc ∧ t.crcPar = start.crcPar ∧ t.crcHold = start.crcHold ∧ t.crcB1 = start.crcB1 ∧
      t.ackAccept = start.ackAccept ∧ t.pendingBreak = start.pendingBreak ∧ t.lastEnd = start.lastEnd ∧
      t.brkBits = start.brkBits

/-- 70 R190: a reset in any mode gives the stated reset values, makes no sink call, and leaves a framer that
takes no step. That the request comes through `inbox` and that the environment stays as it is are the model's
(log 1, log 19). -/
def Obligations.ResetRequestInAnyMode : Prop :=
  ∀ (s : State) (rest : List HostReq), s.inbox = .reset :: rest →
    ∃ t, step s = .next t ∧ t.mode = .idle ∧ t.state = .noFrame ∧ t.pos = 0 ∧ t.id1 = 0 ∧ t.id2 = 0 ∧
      t.bodyLen = 0 ∧ t.remaining = 0 ∧ t.crc = s.config.crcInit ∧ t.crcPar = false ∧ t.crcHold = 0 ∧
      t.crcB1 = 0 ∧ t.ackAccept = 0 ∧ t.pendingBreak = false ∧ t.lastEnd = 0 ∧ t.brkBits = 0 ∧
      t.cancel = false ∧ t.doneCause = .cancelled ∧ t.ackValue = s.config.ackValueReset ∧ t.ackEn = false ∧
      t.version = s.config.versionCode.v2 ∧ t.config = s.config ∧
      (∀ a, (nodeEntry t.nodeAck a).present = false) ∧ t.sink = s.sink ∧ t.samples = s.samples ∧
      t.streamEnded = s.streamEnded ∧ t.inbox = rest ∧ exec .iter t = .next t

/-- 42 R127: SESSION.START begins a session in IDLE under a legal configuration, and in RUN and DONE changes
nothing. The model's choices: an illegal configuration answers the same state and no refusal (log 11), and a session
begins with the model's own bit `waiting` clear (log 2). -/
def Obligations.StartBeginsSession : Prop :=
  ∀ s : State,
    (s.mode = .idle → s.protocol ≠ none → 2 ≤ s.spb →
      exec .sessionStart s = .next
        { s with
          state := .noFrame, pos := 0, id1 := 0, id2 := 0, bodyLen := 0, remaining := 0
          crc := s.config.crcInit, crcPar := false, crcHold := 0, crcB1 := 0, ackAccept := 0
          pendingBreak := false, lastEnd := 0, brkBits := 0, mode := .run, waiting := false }) ∧
    (s.mode = .idle → s.protocol = none ∨ s.spb < 2 → exec .sessionStart s = .next s) ∧
    (s.mode ≠ .idle → exec .sessionStart s = .next s)

/-- 42 R128: SESSION.CANCEL writes `STATUS` and nothing else; ITER performs it when the poll sees
`CTRL.CANCEL`; after DONE no step happens. The model's choices: the bit `waiting` is its own (log 2), and a CANCEL
that comes while a wire operation waits is not seen by this poll (log 25); that form is left to
`ExhaustionEndsOrWaits`, `IterConsumesPendingBreak` and `StepRunsDecodedUnit`, where the waiting step goes on. -/
def Obligations.CancelEndsSession : Prop :=
  (∀ s : State, exec .sessionCancel s =
    .next { s with doneCause := .cancelled, mode := .done, waiting := false }) ∧
  (∀ s : State, s.mode = .run → s.cancel = true → s.waiting = false → exec .iter s = exec .sessionCancel s) ∧
  (∀ s : State, s.mode = .done → exec .iter s = .next s)

/-- 42 R129: SESSION.EXHAUST writes `STATUS` and nothing else. (`waiting` is the model's own, log 2.) -/
def Obligations.ExhaustWritesStatus : Prop :=
  ∀ s : State, exec .sessionExhaust s =
    .next { s with doneCause := .exhausted, mode := .done, waiting := false }

/-- 20 R47, 42 R129, 93 U3, U7: a step whose wire operation runs out of samples ends the session of a stream
that has ended, with only markers at the sink, the cursor anywhere at or past its place, and every other
register kept; on a live stream it only waits (log 2, log 8). The model's choice (log 25): a waiting session goes on
so with `CTRL.CANCEL` set too. -/
def Obligations.ExhaustionEndsOrWaits : Prop :=
  ∀ s : State, s.mode = .run → (s.cancel = false ∨ s.waiting = true) → s.protocol ≠ none → 2 ≤ s.spb →
    wireUnit s = none →
    (s.streamEnded = true → ∃ (p k : Nat) (calls : List SinkCall),
      exec .iter s = .next
        { s with
          mode := .done, doneCause := .exhausted, waiting := false, pos := s.pos + p
          sink := s.sink ++ calls, freeIndex := k } ∧ decodeCalls calls = []) ∧
    (s.streamEnded = false → exec .iter s = .next { s with waiting := true })

/-- 42 R110: outside RUN no step; in RUN with a break pending the step consumes it without reading a sample:
the latch is cleared and `ST.NOFRAME` runs on the saved break (42 R111, 60 R182). With `CTRL.CANCEL` set and the
model's bit `waiting` set the step does so too, without a poll: the model's choice (log 25). -/
def Obligations.IterConsumesPendingBreak : Prop :=
  (∀ s : State, s.mode ≠ .run → exec .iter s = .next s) ∧
  ∀ s : State, s.mode = .run → (s.cancel = false ∨ s.waiting = true) →
    s.state = .noFrame ∨ s.state = .headerBreak → s.pendingBreak = true →
    exec .iter s = .next
      { s with
        pendingBreak := false, brkBits := s.pbBits, crc := s.config.crcInit, crcPar := false
        sink := s.sink ++ [.commit, .emitFrame
          { state := .headerBreak, rawValue := 0x00, sequenceIndex := 0
            startPos := s.pbStart, endPos := s.pbEnd
            flags := { Flags.empty with framingError := s.pbFerr } }]
        lastEnd := s.pbEnd, state := .headerId1 }

/-- 42 R110, R70: where the wire side delivers a unit, the unit and the `state` register decode to an
operation, and the step is that operation performed on the state the wire side left, which differs in the
cursor, the markers, the pending latch and `waiting` only. `State.stepping` admits a set `CTRL.CANCEL` while a wire
operation waits, when the model polls no second time: its choice (log 25). -/
def Obligations.StepRunsDecodedUnit : Prop :=
  ∀ (s t : State) (u : WireUnit), s.stepping → wireUnit s = some (u, t) →
    (∃ i, decode s.config (.state s.state.code u) = .ok i ∧ step s = exec i t) ∧
    ∃ calls, decodeCalls calls = [] ∧
      t = { s with
            pos := t.pos, sink := s.sink ++ calls, pendingBreak := t.pendingBreak, waiting := t.waiting }

/-- The model's step (log 1): with nothing pending the framer's own ITER; otherwise the oldest pending action,
taken from the queue. -/
def Obligations.StepTakesOldestAction : Prop :=
  ∀ (s : State) (rest : List HostReq),
    (s.inbox = [] → step s = exec .iter s) ∧
    (s.inbox = .turn :: rest → step s = exec .iter { s with inbox := rest }) ∧
    (s.inbox = .start :: rest → step s = exec .sessionStart { s with inbox := rest }) ∧
    ∀ r, s.inbox = r :: rest → r ≠ .turn → r ≠ .start → step s = .next (hostAct r { s with inbox := rest })

/-! The state steps. -/

/-- 42 R111, R112: ST.NOFRAME and ST.HEADERBREAK, both branches. -/
def Obligations.BreakStepsBothBranches : Prop :=
  ∀ (u : BreakRec) (s : State),
    (u.value = 0x00 →
      exec (.stNoframe u) s = .next
        { s with
          brkBits := u.bits, crc := s.config.crcInit, crcPar := false
          sink := s.sink ++ [.commit, .emitFrame
            { state := .headerBreak, rawValue := 0x00, sequenceIndex := 0
              startPos := u.startPos, endPos := u.endPos
              flags :=
                { framingError := u.ferr, headerBreakExpected := false, crcMismatch := false
                  receptionFailed := false, unexpectedToggling := u.toggling } }]
          lastEnd := u.endPos, state := .headerId1 }) ∧
    (u.value ≠ 0x00 →
      exec (.stNoframe u) s = .next
        { s with
          brkBits := u.bits
          sink := s.sink ++ [.emitFrame
            { state := .headerBreak, rawValue := u.value, sequenceIndex := 0
              startPos := u.startPos, endPos := u.endPos
              flags :=
                { framingError := u.ferr, headerBreakExpected := true, crcMismatch := false
                  receptionFailed := false, unexpectedToggling := u.toggling } }, .cancel]
          lastEnd := u.endPos, state := .noFrame }) ∧
    exec (.stHeaderbreak u) s = exec (.stNoframe u) s

/-- 42 R113 with 44 R152: ST.HEADERID1. -/
def Obligations.HeaderIdOneStored : Prop :=
  ∀ (r : ByteRec) (s : State) (v : Version), s.protocol = some v →
    exec (.stHeaderid1 r) s = .next
      { s with
        id1 := r.value
        crc := if s.config.crcPairs.get v then
            (if s.crcPar then crcAdd s.config (crcAdd s.config s.crc r.value) s.crcHold else s.crc)
          else crcAdd s.config s.crc r.value
        crcPar := if s.config.crcPairs.get v then !s.crcPar else s.crcPar
        crcHold := if s.config.crcPairs.get v ∧ s.crcPar = false then r.value else s.crcHold
        sink := s.sink ++ [.emitFrame
          { state := .headerId1, rawValue := r.value, sequenceIndex := 0
            startPos := r.startPos, endPos := r.endPos
            flags := { Flags.empty with framingError := r.ferr } }]
        lastEnd := r.endPos, state := .headerId2 }

/-- 42 R114 with 44 R152: ST.HEADERID2; the next state by instruction bit and length. -/
def Obligations.HeaderIdTwoSetsLength : Prop :=
  ∀ (r : ByteRec) (s : State) (v : Version), s.protocol = some v →
    exec (.stHeaderid2 r) s = .next
      { s with
        id2 := r.value
        bodyLen := BitVec.ofNat 8 (len s.config v s.id1 r.value)
        remaining := BitVec.ofNat 8 (len s.config v s.id1 r.value)
        crc := if s.config.crcPairs.get v then
            (if s.crcPar then crcAdd s.config (crcAdd s.config s.crc r.value) s.crcHold else s.crc)
          else crcAdd s.config s.crc r.value
        crcPar := if s.config.crcPairs.get v then !s.crcPar else s.crcPar
        crcHold := if s.config.crcPairs.get v ∧ s.crcPar = false then r.value else s.crcHold
        sink := s.sink ++ [.emitFrame
          { state := .headerId2, rawValue := r.value, sequenceIndex := 0
            startPos := r.startPos, endPos := r.endPos
            flags := { Flags.empty with framingError := r.ferr } }]
        lastEnd := r.endPos
        state := if v = .v2 ∧ r.value.getLsbD s.config.v2InstrBit = true then .instructionByte1
          else if 0 < len s.config v s.id1 r.value then .dataByte else .crcByte1 }

/-- 42 R114: INSTR.V2, the branch of a V2 header word with the instruction bit set. -/
def Obligations.InstrBitLeadsToInstruction : Prop :=
  ∀ (id1 id2 : Byte) (s : State),
    exec (.instrV2 id1 id2) s = .next { s with state := .instructionByte1 }

/-- 42 R115, R116 with 44 R152: ST.INSTR1 and ST.INSTR2. (A session is in these states under V2 only:
`SessionInv.instrOnlyV2`.) -/
def Obligations.InstructionBytesAbsorbed : Prop :=
  ∀ (r : ByteRec) (s : State) (v : Version), s.protocol = some v →
    let crc := if s.config.crcPairs.get v then
        (if s.crcPar then crcAdd s.config (crcAdd s.config s.crc r.value) s.crcHold else s.crc)
      else crcAdd s.config s.crc r.value
    let crcPar := if s.config.crcPairs.get v then !s.crcPar else s.crcPar
    let crcHold := if s.config.crcPairs.get v ∧ s.crcPar = false then r.value else s.crcHold
    exec (.stInstr1 r) s = .next
      { s with
        crc := crc, crcPar := crcPar, crcHold := crcHold
        sink := s.sink ++ [.emitFrame
          { state := .instructionByte1, rawValue := r.value, sequenceIndex := 0
            startPos := r.startPos, endPos := r.endPos
            flags := { Flags.empty with framingError := r.ferr } }]
        lastEnd := r.endPos, state := .instructionByte2 } ∧
    exec (.stInstr2 r) s = .next
      { s with
        crc := crc, crcPar := crcPar, crcHold := crcHold
        sink := s.sink ++ [.emitFrame
          { state := .instructionByte2, rawValue := r.value, sequenceIndex := 0
            startPos := r.startPos, endPos := r.endPos
            flags := { Flags.empty with framingError := r.ferr } }]
        lastEnd := r.endPos
        state := if 0 < s.bodyLen.toNat then .dataByte else .crcByte1 }

/-- 42 R117, R122 with 44 R152: ST.DATA where a byte remains; the sequence index counts from 1. -/
def Obligations.DataByteCountsDown : Prop :=
  ∀ (r : ByteRec) (s : State) (v : Version), s.protocol = some v → 1 ≤ s.remaining.toNat →
    s.remaining.toNat ≤ s.bodyLen.toNat →
    exec (.stData r) s = .next
      { s with
        remaining := BitVec.ofNat 8 (s.remaining.toNat - 1)
        crc := if s.config.crcPairs.get v then
            (if s.crcPar then crcAdd s.config (crcAdd s.config s.crc r.value) s.crcHold else s.crc)
          else crcAdd s.config s.crc r.value
        crcPar := if s.config.crcPairs.get v then !s.crcPar else s.crcPar
        crcHold := if s.config.crcPairs.get v ∧ s.crcPar = false then r.value else s.crcHold
        sink := s.sink ++ [.emitFrame
          { state := .dataByte, rawValue := r.value
            sequenceIndex := BitVec.ofNat 8 (s.bodyLen.toNat - (s.remaining.toNat - 1))
            startPos := r.startPos, endPos := r.endPos
            flags := { Flags.empty with framingError := r.ferr } }]
        lastEnd := r.endPos
        state := if s.remaining.toNat = 1 then .crcByte1 else .dataByte }

/-- 42 R118: ST.CRC1. -/
def Obligations.CrcByteOneLatched : Prop :=
  ∀ (r : ByteRec) (s : State),
    exec (.stCrc1 r) s = .next
      { s with
        crcB1 := r.value
        sink := s.sink ++ [.emitFrame
          { state := .crcByte1, rawValue := r.value, sequenceIndex := 0
            startPos := r.startPos, endPos := r.endPos
            flags := { Flags.empty with framingError := r.ferr } }]
        lastEnd := r.endPos, state := .crcByte2 }

/-- 42 R119 with 44 R154 and 45 R160: ST.CRC2; a mismatch is a flag only, and the packet is committed at once
when no ACK is expected. -/
def Obligations.CrcByteTwoChecksAndDecides : Prop :=
  ∀ (r : ByteRec) (s : State) (v : Version), s.protocol = some v →
    let unit : FrameUnit :=
      { state := .crcByte2, rawValue := r.value, sequenceIndex := 0
        startPos := r.startPos, endPos := r.endPos
        flags := { Flags.empty with
          framingError := r.ferr
          crcMismatch :=
            (if s.config.crcRxLowFirst.get v then r.value ++ s.crcB1 else s.crcB1 ++ r.value) != s.crc } }
    (expectAck s v s.id1 s.id2 = true →
      exec (.stCrc2 r) s = .next
        { s with
          sink := s.sink ++ [.emitFrame unit], lastEnd := r.endPos
          ackAccept := if v = .v2 then s.ackValue else s.config.ackFixed
          state := .ackByte }) ∧
    (expectAck s v s.id1 s.id2 = false →
      exec (.stCrc2 r) s = .next
        { s with
          sink := s.sink ++ [.emitFrame unit, .commit], lastEnd := r.endPos, state := .noFrame })

/-- 42 R120: ST.ACK. -/
def Obligations.AckByteComparedAndCommitted : Prop :=
  ∀ (r : ByteRec) (s : State),
    exec (.stAck r) s = .next
      { s with
        sink := s.sink ++ [.emitFrame
          { state := .ackByte, rawValue := r.value, sequenceIndex := 0
            startPos := r.startPos, endPos := r.endPos
            flags := { Flags.empty with
              framingError := r.ferr, receptionFailed := r.value != s.ackAccept } }, .commit]
        lastEnd := r.endPos, state := .noFrame }

/-- 42 R126: MISSING_BYTE. -/
def Obligations.MissingByteAbortsPacket : Prop :=
  ∀ (r : BreakFieldRec) (s : State),
    exec (.missingByte r) s = .next
      { s with
        sink := s.sink ++ [.cancel, .emitMissingByte s.lastEnd r.startPos]
        pbStart := r.startPos, pbEnd := r.endPos, pbBits := r.bits, pbFerr := r.ferr
        pendingBreak := true, state := .noFrame }

/-- 42 R126 corner case 1, 60 R182: after MISSING_BYTE the next ITER, without reading a sample, builds the
`HeaderBreak` unit of the new packet from the latch and clears it. -/
def Obligations.MissingByteRestartsHeader : Prop :=
  ∀ (r : BreakFieldRec) (s : State), s.mode = .run → s.cancel = false →
    execAll [.missingByte r, .iter] s = .next
      { s with
        pbStart := r.startPos, pbEnd := r.endPos, pbBits := r.bits, pbFerr := r.ferr
        pendingBreak := false, brkBits := r.bits, crc := s.config.crcInit, crcPar := false
        sink := s.sink ++ [.cancel, .emitMissingByte s.lastEnd r.startPos, .commit, .emitFrame
          { state := .headerBreak, rawValue := 0x00, sequenceIndex := 0
            startPos := r.startPos, endPos := r.endPos
            flags := { Flags.empty with framingError := r.ferr } }]
        lastEnd := r.endPos, state := .headerId1 }

/-! The length decoder. The value returned stands in `result` (log 3). -/

/-- 43 R141: the sixteen V2 rows. -/
def Obligations.LengthRowsV2 : Prop :=
  ∀ (version : BitVec 2) (id1 id2 : Byte) (s : State),
    exec (.lenV2F0C0 version id1 id2) s = .next { s with result := .length 0 } ∧
    exec (.lenV2F0C1 version id1 id2) s = .next { s with result := .length 2 } ∧
    exec (.lenV2F0C2 version id1 id2) s = .next { s with result := .length 4 } ∧
    exec (.lenV2F0C3 version id1 id2) s = .next { s with result := .length 6 } ∧
    exec (.lenV2F0C4 version id1 id2) s = .next { s with result := .length 8 } ∧
    exec (.lenV2F0C5 version id1 id2) s = .next { s with result := .length 10 } ∧
    exec (.lenV2F0C6 version id1 id2) s = .next { s with result := .length 18 } ∧
    exec (.lenV2F0C7 version id1 id2) s = .next { s with result := .length 24 } ∧
    exec (.lenV2F1C0 version id1 id2) s = .next { s with result := .length 6 } ∧
    exec (.lenV2F1C1 version id1 id2) s = .next { s with result := .length 12 } ∧
    exec (.lenV2F1C2 version id1 id2) s = .next { s with result := .length 24 } ∧
    exec (.lenV2F1C3 version id1 id2) s = .next { s with result := .length 36 } ∧
    exec (.lenV2F1C4 version id1 id2) s = .next { s with result := .length 48 } ∧
    exec (.lenV2F1C5 version id1 id2) s = .next { s with result := .length 60 } ∧
    exec (.lenV2F1C6 version id1 id2) s = .next { s with result := .length 84 } ∧
    exec (.lenV2F1C7 version id1 id2) s = .next { s with result := .length 128 }

/-- 43 R142, R143: the four V1 and V1Extended rows, from the bits of id2, where the parameters say they lie. -/
def Obligations.LengthRowsV1 : Prop :=
  ∀ (id1 id2 : Byte) (s : State),
    let f3 := s.config.v1F3Lsb
    let f6 := s.config.v1F6Lsb
    let three := (id2.getLsbD (f3 + 2)).toNat + (id2.getLsbD (f3 + 1)).toNat + (id2.getLsbD f3).toNat
    let six := (id2.getLsbD (f6 + 5)).toNat + (id2.getLsbD (f6 + 4)).toNat + (id2.getLsbD (f6 + 3)).toNat +
      (id2.getLsbD (f6 + 2)).toNat + (id2.getLsbD (f6 + 1)).toNat + (id2.getLsbD f6).toNat
    exec (.lenV1F0 id1 id2) s = .next { s with result := .length (three * 6) } ∧
    exec (.lenV1xF0 id1 id2) s = .next { s with result := .length (three * 6) } ∧
    exec (.lenV1F1 id1 id2) s = .next { s with result := .length (six * 6) } ∧
    exec (.lenV1xF1 id1 id2) s =
      .next { s with result := .length ((id2.toNat / 2 ^ (f6 + 2) % 16 + 1) * 2) }

/-- 43 R140 to R143: LEN is, for each version, the operation of the row that decoding the header word gives;
a reserved version code is refused (93 U6; log 9). -/
def Obligations.LengthDispatchAgreesWithRows : Prop :=
  ∀ (w : BitVec 2) (id1 id2 : Byte) (s : State),
    (∀ v, Version.ofCode s.config w = some v →
      ∃ i, decode s.config (.header (headerWord w id1 id2)) = .ok i ∧ exec (.len w id1 id2) s = exec i s ∧
        exec i s = .next { s with result := .length (len s.config v id1 id2) }) ∧
    (Version.ofCode s.config w = none → exec (.len w id1 id2) s = .refused .reservedVersion)

/-- 43 R144: the range of LEN in each version, and that every V2 length is even (43 R141), wherever the header
fields lie. -/
def Obligations.LengthRangeAndParity : Prop :=
  ∀ (p : Config) (id1 id2 : Byte),
    len p .v1 id1 id2 ≤ 36 ∧ len p .v1Extended id1 id2 ≤ 32 ∧ len p .v2 id1 id2 ≤ 128 ∧
    len p .v2 id1 id2 % 2 = 0 ∧
    (id1.getLsbD p.v1FselBit = false → len p .v1 id1 id2 = len p .v1Extended id1 id2) ∧
    (id1.getLsbD p.v1FselBit = true → 2 ≤ len p .v1Extended id1 id2)

/-! The CRC accumulator. -/

/-- 44 R150, R153, R154: CRC.RESET, CRC.RESULT and CRC.RXCHECK (returned values in `result`, log 3). -/
def Obligations.CrcResetResultCheck : Prop :=
  ∀ (s : State) (b2 : Byte),
    exec .crcReset s = .next { s with crc := s.config.crcInit, crcPar := false } ∧
    exec .crcResult s = .next { s with result := .crc s.crc } ∧
    ∀ v, s.protocol = some v →
      let rx := if s.config.crcRxLowFirst.get v then b2 ++ s.crcB1 else s.crcB1 ++ b2
      exec (.crcRxcheck b2) s = .next { s with result := .rxCheck rx (rx != s.crc) }

/-- 44 R152: CRC.ABSORB.V1 and CRC.ABSORB.V2. -/
def Obligations.CrcAbsorbBothArms : Prop :=
  ∀ (s : State) (b : Byte),
    exec (.crcAbsorbV1 b) s = .next { s with crc := crcAdd s.config s.crc b } ∧
    (s.crcPar = false → exec (.crcAbsorbV2 b) s = .next { s with crcHold := b, crcPar := true }) ∧
    (s.crcPar = true →
      exec (.crcAbsorbV2 b) s = .next
        { s with crc := crcAdd s.config (crcAdd s.config s.crc b) s.crcHold, crcPar := false })

/-- 44 R151: CRC.ADD returns its value and changes nothing; the step-by-step example and the single-byte
values of the rule, and the check value of the nine digits, at the parameters of 00 R5. -/
def Obligations.CrcAddExamples : Prop :=
  (∀ (c : Word) (b : Byte) (s : State),
    exec (.crcAdd c b) s = .next { s with result := .crc (crcAdd s.config c b) }) ∧
  crcAdd cfg 0xFFFF 0x10 = 0xF3C1 ∧ crcAdd cfg 0xFFFF 0x00 = 0xE1F0 ∧ crcAdd cfg 0xFFFF 0xFF = 0xFF00 ∧
  crcAdd cfg 0xFFFF 0x01 = 0xF1D1 ∧ crcAdd cfg 0xFFFF 0x80 = 0x7078 ∧ crcAdd cfg 0xFFFF 0x22 = 0xE5D0 ∧
  crcAdd cfg (crcAdd cfg 0xFFFF 0x10) 0x22 = 0x1A5C ∧ crcAdd cfg (crcAdd cfg 0xFFFF 0x22) 0x10 = 0x6FBA ∧
  crc16 cfg [0x31, 0x32, 0x33, 0x34, 0x35, 0x36, 0x37, 0x38, 0x39] = 0x29B1

/-- 44 R151: CRC_ADD is linear over GF(2) in the pair of its arguments, for every polynomial, and, for a fixed
byte and a polynomial with constant term 1 as the one of 00 R5, a bijection of the register. -/
def Obligations.CrcAddLinearBijective : Prop :=
  ∀ p : Config,
    (∀ (c c' : Word) (b b' : Byte), crcAdd p (c ^^^ c') (b ^^^ b') = crcAdd p c b ^^^ crcAdd p c' b') ∧
    (p.crcPoly.getLsbD 0 = true → ∀ b : Byte, Function.Bijective fun c : Word => crcAdd p c b)

/-- 44 R152, R155: absorbing bytes one after another. In V1 and V1Extended they enter in wire order; in V2 an
even number of them, from the start of a pair, enters in pairs, second byte first, and no byte is held back. -/
def Obligations.CrcAbsorbsInPairs : Prop :=
  ∀ (s : State) (bytes : List Byte),
    execAll (bytes.map .crcAbsorbV1) s = .next { s with crc := bytes.foldl (crcAdd s.config) s.crc } ∧
    (s.crcPar = false → bytes.length % 2 = 0 →
      ∃ hold, execAll (bytes.map .crcAbsorbV2) s = .next
        { s with crc := (pairOrder bytes).foldl (crcAdd s.config) s.crc, crcHold := hold })

/-! The ACK policy. -/

/-- 45 R160 to R162: the three arms of ACK_POLICY and ACK_ENABLED (returned values in `result`, log 3). -/
def Obligations.AckPolicyArms : Prop :=
  ∀ (s : State) (id1 id2 node : Byte),
    let enabled (a : Byte) : Bool :=
      if (nodeEntry s.nodeAck a).present then (nodeEntry s.nodeAck a).enable else s.ackEn
    let expect (a : Byte) (direction level : Bool) : Bool := enabled a && (direction == level)
    exec (.ackEnabled node) s = .next { s with result := .enabled (enabled node) } ∧
    exec (.ackpolV1 id1 id2) s = .next
      { s with
        result := .ackPolicy
          (expect (id1 >>> 2) (id1.getLsbD s.config.v1DirBit) s.config.dirAckLevel.v1) s.config.ackFixed } ∧
    exec (.ackpolV1x id1 id2) s = .next
      { s with
        result := .ackPolicy
          (expect (id1 >>> 2) (id1.getLsbD s.config.v1DirBit) s.config.dirAckLevel.v1Extended)
          s.config.ackFixed } ∧
    exec (.ackpolV2 id1 id2) s = .next
      { s with
        result := .ackPolicy (expect id1 (id2.getLsbD s.config.v2DirBit) s.config.dirAckLevel.v2) s.ackValue }

/-- 10 R23: versions V1 and V1Extended ignore `ACK_VALUE`: changing it changes nothing else that any operation
but ACKPOL.V2, the V2 arm itself, does. -/
def Obligations.AckValueOnlyMattersInV2 : Prop :=
  ∀ (i : Instr) (s : State) (b : Byte), s.protocol ≠ some .v2 →
    (∀ id1 id2, i ≠ .ackpolV2 id1 id2) →
    exec i { s with ackValue := b } = mapNext (fun t => { t with ackValue := b }) (exec i s)

/-! Registers, tables and the host. -/

/-- 10 R24, 20 R59: a read of NODE_ACK after a write returns the written entry at its address and the old entry
at every other; and two tables in canonical form that read the same are the same data. -/
def Obligations.NodeTableReadAfterWrite : Prop :=
  ∀ size : Nat,
    (∀ (m : List Host.Cell) (a b : Byte) (e : NodeEntry), Memory.wf size m = true →
      nodeEntry (Memory.write m a.toNat e.toByte) b = if b = a then e else nodeEntry m b) ∧
    ∀ m m' : List Host.Cell, size ≤ 256 → Memory.wf size m = true → Memory.wf size m' = true →
      (∀ a : Byte, nodeEntry m a = nodeEntry m' a) → m = m'

/-- 10 R20, 70 R200: a control-register write takes effect in IDLE and is ignored in RUN and DONE; in IDLE each
writes its own register only. `SPB` takes the `POS_W` bits it has (10 R22, 00 R7), and NODE_ACK has the entries of its
size (20 R59; the answer to a write past it is the model's, log 18). -/
def Obligations.ControlWritesOnlyInIdle : Prop :=
  ∀ (s : State) (v : BitVec 2) (n : Nat) (b : Bool) (x a : Byte) (e : NodeEntry),
    (s.mode = .idle →
      hostAct (.writeVersion v) s = { s with version := v } ∧
      hostAct (.writeSpb n) s = { s with spb := n % 2 ^ s.config.posW } ∧
      hostAct (.writeAckEn b) s = { s with ackEn := b } ∧
      hostAct (.writeAckValue x) s = { s with ackValue := x } ∧
      (a.toNat < s.config.nodeAckSize →
        hostAct (.writeNodeAck a e) s = { s with nodeAck := Memory.write s.nodeAck a.toNat e.toByte }) ∧
      (s.config.nodeAckSize ≤ a.toNat → hostAct (.writeNodeAck a e) s = s)) ∧
    (s.mode = .run ∨ s.mode = .done →
      hostAct (.writeVersion v) s = s ∧ hostAct (.writeSpb n) s = s ∧ hostAct (.writeAckEn b) s = s ∧
      hostAct (.writeAckValue x) s = s ∧ hostAct (.writeNodeAck a e) s = s)

/-- 60 R184, R187, 20 R58, R59, 10 R18, R24, R25: in every mode the host reads the control registers and `STATUS`;
in IDLE and DONE also the data registers and `CTRL.CANCEL`, the break latch only while it holds a break. In RUN the
model answers no data register and not `CTRL.CANCEL` (log 20). A read changes nothing but the answer (log 3). -/
def Obligations.HostReadsByMode : Prop :=
  ∀ s : State,
    (∀ r, hostAct (.read r) s = { s with result := .register (hostRead r s) }) ∧
    (hostRead .version s = some s.version.toNat ∧ hostRead .spb s = some s.spb ∧
      hostRead .ackEn s = some s.ackEn.toNat ∧ hostRead .ackValue s = some s.ackValue.toNat ∧
      (∀ a, hostRead (.nodeAck a) s =
        some (2 * (nodeEntry s.nodeAck a).present.toNat + (nodeEntry s.nodeAck a).enable.toNat)) ∧
      hostRead .statusMode s = some (match s.mode with | .idle => 0 | .run => 1 | .done => 2) ∧
      hostRead .doneCause s = some (match s.doneCause with | .cancelled => 0 | .exhausted => 1)) ∧
    (s.mode = .idle ∨ s.mode = .done →
      hostRead .state s = some s.state.code.toNat ∧ hostRead .pos s = some s.pos ∧
      hostRead .id1 s = some s.id1.toNat ∧ hostRead .id2 s = some s.id2.toNat ∧
      hostRead .bodyLen s = some s.bodyLen.toNat ∧ hostRead .remaining s = some s.remaining.toNat ∧
      hostRead .crc s = some s.crc.toNat ∧ hostRead .crcPar s = some s.crcPar.toNat ∧
      hostRead .crcHold s = some s.crcHold.toNat ∧ hostRead .crcB1 s = some s.crcB1.toNat ∧
      hostRead .ackAccept s = some s.ackAccept.toNat ∧ hostRead .lastEnd s = some s.lastEnd ∧
      hostRead .brkBits s = some s.brkBits ∧ hostRead .cancel s = some s.cancel.toNat ∧
      hostRead .pendingBreak s = some s.pendingBreak.toNat ∧
      (s.pendingBreak = true →
        hostRead .pbStart s = some s.pbStart ∧ hostRead .pbEnd s = some s.pbEnd ∧
        hostRead .pbBits s = some s.pbBits ∧ hostRead .pbFerr s = some s.pbFerr.toNat) ∧
      (s.pendingBreak = false → ∀ r ∈ [HostReg.pbStart, .pbEnd, .pbBits, .pbFerr], hostRead r s = none)) ∧
    (s.mode = .run →
      ∀ r ∈ [HostReg.state, .pos, .id1, .id2, .bodyLen, .remaining, .crc, .crcPar, .crcHold, .crcB1, .ackAccept,
        .pendingBreak, .pbStart, .pbEnd, .pbBits, .pbFerr, .lastEnd, .brkBits, .cancel], hostRead r s = none)

/-- 10 R20, R25, R29, 20 R41, R58: no operation of the framer writes a parameter, a control register,
`CTRL.CANCEL`, the sample stream or the host's queue; no step writes a parameter; outside IDLE no step but a reset
writes a control register, and in no mode does a step but a reset clear `CTRL.CANCEL`. (The host's CANCEL write and
the stream's deliveries do take effect in RUN.) -/
def Obligations.ConfigurationFrozen : Prop :=
  (∀ (i : Instr) (s t : State), exec i s = .next t →
    t.config = s.config ∧ t.controls = s.controls ∧ t.surroundings = s.surroundings ∧ t.cancel = s.cancel) ∧
  ∀ s t : State, step s = .next t →
    t.config = s.config ∧
    (s.nextIsReset = false → (s.mode ≠ .idle → t.controls = s.controls) ∧ (s.cancel = true → t.cancel = true))

/-- 10 R12: the cursor never moves back in a session: no operation but START decreases `pos`, and no step in RUN
but a reset. -/
def Obligations.CursorNeverMovesBack : Prop :=
  (∀ (i : Instr) (s t : State), i ≠ .sessionStart → exec i s = .next t → s.pos ≤ t.pos) ∧
  ∀ s t : State, step s = .next t → s.mode = .run → s.nextIsReset = false → s.pos ≤ t.pos

/-- 20 R58: sink calls are only appended, by every operation and every step. -/
def Obligations.SinkCallsOnlyAppended : Prop :=
  (∀ (i : Instr) (s t : State), exec i s = .next t → s.sink <+: t.sink) ∧
  ∀ s t : State, step s = .next t → s.sink <+: t.sink

/-- 60 R170, R184: under a configuration START accepts, every operation on every operand answers a next state. For
BRK_SCAN, BYTE_READ and ITER on a live stream without the samples they need that next state is the waiting state of
log 2, the model's form of 93 U7, where the step is stuck; `BreakScanFindsBreak`, `ByteReadReadsFrame` and
`StepRunsDecodedUnit` say where they complete. -/
def Obligations.EveryOperationCompletes : Prop :=
  ∀ (i : Instr) (s : State), i.wellFormed s.config = true → s.protocol ≠ none → 2 ≤ s.spb →
    ∃ t, exec i s = .next t

/-- 30 R74, 93 U4, U6: a reserved version code is refused by the operations that read `VERSION`, and a bit
period below two samples by the wire operations; START keeps both out of a session (log 9). -/
def Obligations.ReservedConfigurationRefused : Prop :=
  ∀ (s : State) (r : ByteRec) (b : Byte),
    (s.protocol = none →
      exec (.stHeaderid1 r) s = .refused .reservedVersion ∧ exec (.stHeaderid2 r) s = .refused .reservedVersion ∧
      exec (.stInstr1 r) s = .refused .reservedVersion ∧ exec (.stInstr2 r) s = .refused .reservedVersion ∧
      exec (.stData r) s = .refused .reservedVersion ∧ exec (.stCrc2 r) s = .refused .reservedVersion ∧
      exec (.crcRxcheck b) s = .refused .reservedVersion ∧ exec .brkScan s = .refused .reservedVersion ∧
      exec .byteRead s = .refused .reservedVersion) ∧
    (s.protocol ≠ none → s.spb < 2 →
      exec .brkScan s = .refused .illegalBitPeriod ∧ exec .byteRead s = .refused .illegalBitPeriod)

/-! Bit timing and the wire operations. -/

/-- 20 R48 and, for the second clause, 40 R90 corner case 6 (the spec's own inference from R48): a low run counts as
`n` or more bits when it lasts at least `n - 1/2` bit periods, and the stop-bit sample is never inside the run. -/
def Obligations.RoundingThreshold : Prop :=
  ∀ (p : Config) (spb d n : Nat), 0 < spb →
    (1 ≤ n → (n ≤ rnd spb d ↔ (2 * n - 1) * spb ≤ 2 * d)) ∧
    (p.halfDivisor = 2 → d ≤ rnd spb d * spb + half p spb)

/-- 40 R90: BRK_SCAN on a line that is low for `g` samples (none, in the normal case), high, then any number of low
runs too short to be a break, each with the high run after it, then low for `d` samples that count as a break field,
then high. The stop-bit sample reads `b`, and the next edge is `gap` samples after it. ErrToggling marks the first
rising edge that is passed over; the stop bit that reads low sets `ferr`. -/
def Obligations.BreakScanFindsBreak : Prop :=
  ∀ (s : State) (v : Version) (g h d gap : Nat) (b : Bool) (passed : List (Nat × Nat)) (rest : List Sample),
    s.protocol = some v → s.config.halfDivisor = 2 → 2 ≤ s.spb → 1 ≤ h → 1 ≤ d → 1 ≤ gap →
    (∀ r ∈ passed, 1 ≤ r.1 ∧ 1 ≤ r.2 ∧ rnd s.spb r.1 < s.config.minBrk.get v) →
    s.config.minBrk.get v ≤ rnd s.spb d →
    s.samples.drop s.pos = line g false ++ line h true ++
      passed.flatMap (fun r => line r.1 false ++ line r.2 true) ++ line d false ++ true :: rest →
    let mid := half s.config s.spb
    let n := rnd s.spb d
    let start := s.pos + g + h + (passed.map fun r => r.1 + r.2).sum
    let stop := start + mid + n * s.spb
    let fin := if mid < gap then stop + mid else stop + (gap - 1)
    (∀ q, q < gap → s.samples[stop + q]? = some b) → s.samples[stop + gap]? = some (!b) →
    exec .brkScan s = .next
      { s with
        pos := fin, waiting := false
        sink := s.sink ++
          (if 0 < g then [.emitMarker (s.pos + g) .errToggling]
            else (passed.take 1).map fun r => .emitMarker (s.pos + h + r.1) .errToggling) ++
          ((List.range n).map fun i => .emitMarker (start + mid + i * s.spb)
            (if d ≤ mid + i * s.spb then .bitOne else .bitZero)) ++
          [.emitMarker stop (if b then .stopBit else .errFraming)] ++
          (if gap < mid then [.emitMarker fin .stopShort] else [])
        result := .brk
          { value := 0x00, startPos := start, endPos := fin, bits := n
            toggling := decide (0 < g ∨ passed ≠ []), ferr := !b } }

/-- 40 R91, R92 (the spec's own inferences from R90) and 30 R61: whatever the line, a scan that returns has value
0x00, a low run of at least the version's minimum, and the cursor past the stop-bit sample, before the edge that
follows it. -/
def Obligations.BreakScanReturnsValidBreak : Prop :=
  ∀ (p : Config) (S : List Sample) (spb : Nat) (v : Version) (c c' : Cursor) (u : BreakRec), 2 ≤ spb →
    brkScan p S spb v c = .done u c' →
    let stop := u.startPos + half p spb + u.bits * spb
    u.value = 0x00 ∧ p.minBrk.get v ≤ u.bits ∧ c.pos < u.startPos ∧ c'.pos = u.endPos ∧
    (∃ d, rnd spb d = u.bits ∧ (∀ q, q < d → S[u.startPos + q]? = some false) ∧
      S[u.startPos + d]? = some true) ∧
    stop ≤ u.endPos ∧ u.endPos ≤ stop + half p spb ∧
    ∀ q, stop ≤ q → q ≤ u.endPos → S[q]? = some (!u.ferr)

/-- 41 R100, 30 R62, 20 R49, R56: BYTE_READ reads the frame of every byte in the version's bit order, at every
bit period and offset; a line that was low at the cursor only sets `ferr`. -/
def Obligations.ByteReadReadsFrame : Prop :=
  ∀ (s : State) (v : Version) (g h : Nat) (value : Byte) (rest : List Sample),
    s.protocol = some v → s.config.halfDivisor = 2 → 2 ≤ s.spb → 1 ≤ h →
    s.samples.drop s.pos = line g false ++ line h true ++ byteWave s.config v s.spb value true ++ rest →
    let start := s.pos + g + h
    let mid (k : Nat) := start + half s.config s.spb + k * s.spb
    exec .byteRead s = .next
      { s with
        pos := mid 9, waiting := false
        sink := s.sink ++ (if 0 < g then [.emitMarker (s.pos + g) .errFraming] else []) ++
          [.emitMarker (mid 0) .startBit] ++
          ((List.range 8).map fun k => .emitMarker (mid (k + 1)) (bitMarker (dataBit s.config v value k))) ++
          [.emitMarker (mid 9) .stopBit]
        result := .read (.byte
          { value := value, startPos := start, endPos := mid 9, ferr := decide (0 < g) }) }

/-- 41 R100 conditions (a), (b), (c) and corner cases 3, 4 and 6: a line low for `g` samples (none, in the normal
case), high, then a low run from `start` of `d` samples, at least to the stop-bit sample, then high for `u` samples.
Past `X` more bit periods it is a break field if more than half a bit is high, with `ferr` when the line was low at
the cursor (60 R180 item 5), else a framing error at the rising edge; not past them, a framing error at the stop
bit. -/
def Obligations.LongLowIsBreakFieldOrError : Prop :=
  ∀ (s : State) (v : Version) (g h d u : Nat) (rest : List Sample),
    s.protocol = some v → s.config.halfDivisor = 2 → 2 ≤ s.spb → 1 ≤ h → 1 ≤ u →
    s.samples.drop s.pos = line g false ++ line h true ++ line d false ++ line u true ++ false :: rest →
    let half := half s.config s.spb
    let limit := half + (9 + s.config.xExtra.get v) * s.spb
    let start := s.pos + g + h
    let mid (k : Nat) := start + half + k * s.spb
    let marks : List SinkCall :=
      (if 0 < g then [.emitMarker (s.pos + g) .errFraming] else []) ++
        .emitMarker (mid 0) .startBit :: (List.range 8).map fun k => .emitMarker (mid (k + 1)) .bitZero
    half + 9 * s.spb < d →
    (limit < d → half < u →
      exec .byteRead s = .next
        { s with
          pos := start + d + half, waiting := false, sink := s.sink ++ marks
          result := .read (.breakField
            { startPos := start, endPos := start + d + half, bits := rnd s.spb d, ferr := decide (0 < g) }) }) ∧
    (limit < d → u ≤ half →
      exec .byteRead s = .next
        { s with
          pos := start + d, waiting := false
          sink := s.sink ++ marks ++ [.emitMarker (start + d) .errFraming]
          result := .read (.byte
            { value := 0x00, startPos := start, endPos := start + d, ferr := true }) }) ∧
    (d ≤ limit →
      exec .byteRead s = .next
        { s with
          pos := mid 9, waiting := false
          sink := s.sink ++ marks ++ [.emitMarker (mid 9) .errFraming]
          result := .read (.byte { value := 0x00, startPos := start, endPos := mid 9, ferr := true }) })

/-- 41 R100 condition (a): a frame with a low stop bit and any data bit set is a framing error, its value
returned as read, once a later edge exists (70 R202; log 23); also after a resynchronisation, when the line was low at
the cursor for `g` samples. -/
def Obligations.LowStopWithDataIsFramingError : Prop :=
  ∀ (s : State) (v : Version) (g h w : Nat) (value : Byte) (rest : List Sample),
    s.protocol = some v → s.config.halfDivisor = 2 → 2 ≤ s.spb → 1 ≤ h → value ≠ 0x00 →
    s.samples.drop s.pos =
      line g false ++ line h true ++ byteWave s.config v s.spb value false ++ line w false ++ true :: rest →
    let start := s.pos + g + h
    let mid (k : Nat) := start + half s.config s.spb + k * s.spb
    exec .byteRead s = .next
      { s with
        pos := mid 9, waiting := false
        sink := s.sink ++ (if 0 < g then [.emitMarker (s.pos + g) .errFraming] else []) ++
          [.emitMarker (mid 0) .startBit] ++
          ((List.range 8).map fun k => .emitMarker (mid (k + 1)) (bitMarker (dataBit s.config v value k))) ++
          [.emitMarker (mid 9) .errFraming]
        result := .read (.byte { value := value, startPos := start, endPos := mid 9, ferr := true }) }

/-- 41 R101, R102 and R100 corner cases 3, 6, 7: whatever the line, where each outcome of a completed BYTE_READ
leaves the cursor. -/
def Obligations.ByteReadLeavesCursor : Prop :=
  ∀ (p : Config) (S : List Sample) (spb : Nat) (v : Version) (c c' : Cursor) (r : ReadResult),
    p.halfDivisor = 2 → 2 ≤ spb → byteRead p S spb v c = .done r c' →
    match r with
    | .byte b =>
      let stop := b.startPos + half p spb + 9 * spb
      c.pos < b.startPos ∧ c'.pos = b.endPos ∧
      ((b.endPos = stop ∧ S[b.endPos]? = some true) ∨
        (b.endPos = stop ∧ S[b.endPos]? = some false ∧ b.ferr = true) ∨
        (stop + p.xExtra.get v * spb < b.endPos ∧ b.value = 0x00 ∧ b.ferr = true ∧
          S[b.endPos]? = some true ∧ ∀ q, stop ≤ q → q < b.endPos → S[q]? = some false))
    | .breakField f =>
      c.pos < f.startPos ∧ c'.pos = f.endPos ∧
      ∃ re, f.endPos = re + half p spb ∧ f.bits = rnd spb (re - f.startPos) ∧ 10 + p.xExtra.get v ≤ f.bits ∧
        f.startPos + half p spb + (9 + p.xExtra.get v) * spb < re ∧ S[re - 1]? = some false ∧
        ∀ q, re ≤ q → q ≤ f.endPos → S[q]? = some true

/-- 20 R56: the same waveform reads as bit-reversed values in the two bit orders, at the same places and with
the same markers. -/
def Obligations.BitOrdersAreReversed : Prop :=
  ∀ (p : Config) (S : List Sample) (spb : Nat) (v w : Version) (c c' : Cursor) (b : ByteRec), 2 ≤ spb →
    p.lsbFirst.get w = !p.lsbFirst.get v →
    byteRead p S spb v c = .done (.byte b) c' → S[b.startPos + half p spb + 9 * spb]? = some true →
    byteRead p S spb w c = .done (.byte { b with value := b.value.reverse }) c'

/-- 20 R41, R47, 70 R202: a wire operation that has returned has seen all it needs: samples that come later
change nothing of what it returned. -/
def Obligations.LaterSamplesChangeNothing : Prop :=
  ∀ (p : Config) (S more : List Sample) (spb : Nat) (v : Version) (c c' : Cursor),
    (∀ r, byteRead p S spb v c = .done r c' → byteRead p (S ++ more) spb v c = .done r c') ∧
    ∀ u, brkScan p S spb v c = .done u c' → brkScan p (S ++ more) spb v c = .done u c'

/-! The sequencer as a whole. -/

/-- 42 R130, R123: the transition table. A step whose wire side delivers a unit makes markers and then the calls
of the unit's row, and goes to the row's next state; the row of a break with a value other than 0x00 does not
occur (40 R91). The premise on `CTRL.CANCEL` admits a request that comes while a wire operation waits, when the
model polls no second time: its choice (log 25). -/
def Obligations.TransitionTable : Prop :=
  ∀ (s t s' : State) (u : WireUnit), s.mode = .run → (s.cancel = false ∨ s.waiting = true) →
    wireUnit s = some (u, s') → exec .iter s = .next t →
    ∃ marks calls : List SinkCall, decodeCalls marks = [] ∧ t.sink = s.sink ++ marks ++ calls ∧ t.mode = .run ∧
      match u with
      | .brk _ =>
        t.state = .headerId1 ∧ t.pendingBreak = false ∧
          ∃ f : FrameUnit, f.state = .headerBreak ∧ calls = [.commit, .emitFrame f]
      | .breakField _ =>
        t.state = .noFrame ∧ t.pendingBreak = true ∧ ∃ a b, calls = [.cancel, .emitMissingByte a b]
      | .byte r =>
        t.pendingBreak = s.pendingBreak ∧
        ∃ f : FrameUnit, f.state = s.state ∧ f.rawValue = r.value ∧
          match s.state with
          | .noFrame | .headerBreak => False
          | .headerId1 => t.state = .headerId2 ∧ calls = [.emitFrame f]
          | .headerId2 =>
            t.state = (if s.protocol = some .v2 ∧ r.value.getLsbD s.config.v2InstrBit = true then .instructionByte1
              else if t.bodyLen = 0 then .crcByte1 else .dataByte) ∧ calls = [.emitFrame f]
          | .instructionByte1 => t.state = .instructionByte2 ∧ calls = [.emitFrame f]
          | .instructionByte2 =>
            t.state = (if s.bodyLen = 0 then .crcByte1 else .dataByte) ∧ calls = [.emitFrame f]
          | .dataByte =>
            t.state = (if s.remaining = 1 then .crcByte1 else .dataByte) ∧ calls = [.emitFrame f]
          | .crcByte1 => t.state = .crcByte2 ∧ calls = [.emitFrame f]
          | .crcByte2 =>
            ∀ v, s.protocol = some v →
              if expectAck s v s.id1 s.id2 then t.state = .ackByte ∧ calls = [.emitFrame f]
              else t.state = .noFrame ∧ calls = [.emitFrame f, .commit]
          | .ackByte => t.state = .noFrame ∧ calls = [.emitFrame f, .commit]

/-- The reset state meets the invariants of a session (`SessionInv`, `UnitsSound`, `PacketInv` in
Sys2Proof/Safety.lean). -/
def Obligations.InvariantsHoldAtReset : Prop :=
  SessionInv State.reset ∧ UnitsSound State.reset.sink ∧ PacketInv State.reset

/-- 10 R11, R14, R18, R24, 42 R115, R117, 43 R144, 44 R152, R155: every step of the machine keeps `SessionInv`. -/
def Obligations.StepKeepsSessionInv : Prop :=
  ∀ s t : State, SessionInv s → step s = .next t → SessionInv t

/-- 10 R30, 42 R122, 60 R178: every unit that reaches the sink carries only the flags its role allows, never
HeaderBreakExpected, and a sequence index of 1 to 128 exactly for a data byte. -/
def Obligations.StepEmitsSoundUnits : Prop :=
  ∀ s t : State, SessionInv s → UnitsSound s.sink → step s = .next t → UnitsSound t.sink

/-- 10 R31, 20 R52, R53, 30 R63, 42 R123: every packet the sink makes visible is whole, in the order of the wire
format, and is never a fragment; a step other than a reset keeps it so. -/
def Obligations.PacketsAreWhole : Prop :=
  ∀ s t : State, PacketInv s → s.nextIsReset = false → step s = .next t → PacketInv t

/-- 30 R81: a packet built by PKT.V1, PKT.V2 or PKT.V2I, at any bit period and after any idle time, is decoded to
its bytes with an empty flag set on every unit, and committed unless an ACK is to come. The builders are written for
the parameters of 00 R5. -/
def Obligations.BuiltPacketsDecodeCleanly : Prop :=
  ∀ (s : State) (v : Version) (h : Nat) (id1 id2 : Byte) (instr : Option (Byte × Byte)) (data : List Byte)
    (rest : List Sample),
    s.config = cfg → s.mode = .run → s.cancel = false → s.state = .noFrame → s.pendingBreak = false →
    s.protocol = some v → 2 ≤ s.spb → 1 ≤ h → data.length = len cfg v id1 id2 →
    instr.isSome = (if v = .v2 then id2.getLsbD 0 else false) →
    let packet := match v, instr with
      | .v1, _ => pktV1 cfg id1 id2 data
      | .v1Extended, _ => pktV1 cfg id1 id2 data
      | .v2, none => pktV2 cfg id1 id2 data
      | .v2, some (i1, i2) => pktV2I cfg id1 id2 i1 i2 data
    let instrBytes := match instr with
      | none => []
      | some (i1, i2) => [i1, i2]
    let instrStates := match instr with
      | none => []
      | some _ => [FrameState.instructionByte1, .instructionByte2]
    s.samples.drop s.pos = line h true ++ waveform cfg v s.spb packet ++ rest →
    ∃ (t : State) (units : List FrameUnit),
      execAll (List.replicate (instrBytes.length + data.length + 5) .iter) s = .next t ∧
      decodeCalls t.sink = decodeCalls s.sink ++ .commit :: units.map .emitFrame ++
        (if expectAck s v id1 id2 then [] else [.commit]) ∧
      t.state = (if expectAck s v id1 id2 then .ackByte else .noFrame) ∧
      (∀ u ∈ units, u.flags = Flags.empty) ∧
      ∃ c1 c2 : Byte, units.map (·.rawValue) = 0x00 :: id1 :: id2 :: instrBytes ++ data ++ [c1, c2] ∧
        units.map (·.state) = [.headerBreak, .headerId1, .headerId2] ++ instrStates ++
          List.replicate data.length .dataByte ++ [.crcByte1, .crcByte2]

/-! Encoding. -/

/-- 30 R62, R70, R76: one word of each kind, written out from the spec's encoding at the parameters of 00 R5, and
what it decodes to. That the last frame, whose stop bit is low, is rejected as notAFrame is the table-word decoder's
choice (log 14): on the wire such a frame is never refused (30 R74). -/
def Obligations.WrittenWordsDecode : Prop :=
  (∀ r, decode cfg (.state 0b0110 (.byte r)) = .ok (.stData r)) ∧
  (∀ u, decode cfg (.state 0b0000 (.brk u)) = .ok (.stNoframe u)) ∧
  (∀ u, decode cfg (.state 0b1010 u) = .error (.reservedState 0b1010)) ∧
  decode cfg (.header 0b10_00010000_00100010) = .ok (.lenV2F0C1 2 0x10 0x22) ∧
  decode cfg (.header 0b00_00001110_10000000) = .ok (.lenV1F0 0x0E 0x80) ∧
  decode cfg (.header 0b01_00010101_00000000) = .ok (.lenV1xF1 0x15 0x00) ∧
  decode cfg (.header 0b11_00000000_00000000) = .error .reservedVersion ∧
  decode cfg (.instrBit 0b10_00110011_00000001) = .ok (.instrV2 0x33 0x01) ∧
  decode cfg (.frame 0b0101001011) = .ok .byteRead ∧ decode cfg (.frame 0b0101001010) = .error .notAFrame

/-- 30 R70, R76: decode of encode is the operation, for every well-formed operation that has an encoding, every value
of its operands and every place of the header fields; the version codes are distinct as in 00 R5. -/
def Obligations.DecodeOfEncode : Prop :=
  ∀ (p : Config) (i : Instr) (sel : Selector), p.codesDistinct → i.wellFormed p = true →
    encode p i = some sel → decode p sel = .ok i

/-- 30 R70, R76: a word decodes only to the operation whose encoding it is: decoding and encoding again gives
the word back, for every state word with a unit that is no break field (whose MISSING_BYTE has no word) and
every header word; and what a header word decodes to is well-formed. -/
def Obligations.EncodeOfDecode : Prop :=
  ∀ (p : Config) (sel : Selector) (i : Instr), decode p sel = .ok i →
    ((∀ f, sel ≠ .frame f) → (∀ w f, sel ≠ .state w (.breakField f)) → encode p i = some sel) ∧
    ∀ h, sel = .header h ∨ sel = .instrBit h → i.wellFormed p = true

/-- 30 R62: the byte frame of every value in every version decodes to BYTE_READ and holds that value, and its
symbols are those of the waveform of 30 R80. -/
def Obligations.FramesHoldTheirValue : Prop :=
  ∀ (p : Config) (v : Version) (b : Byte),
    decode p (.frame (frameOf p v b)) = .ok .byteRead ∧ frameValue p v (frameOf p v b) = b ∧
    byteWave p v 1 b true = (List.range 10).map fun k => (frameOf p v b).getMsbD k

/-- 30 R71, R72, R73: flag bits, event-word kinds and marker kinds. -/
def Obligations.EventCodes : Prop :=
  (∀ f : Flags, f.code.getLsbD 0 = f.framingError ∧ f.code.getLsbD 1 = f.headerBreakExpected ∧
    f.code.getLsbD 2 = f.crcMismatch ∧ f.code.getLsbD 3 = f.receptionFailed ∧
    f.code.getLsbD 4 = f.unexpectedToggling) ∧
  (∀ u p k a b, (SinkCall.emitFrame u).kind = 0 ∧ SinkCall.commit.kind = 1 ∧ SinkCall.cancel.kind = 2 ∧
    (SinkCall.emitMarker p k).kind = 3 ∧ (SinkCall.emitMissingByte a b).kind = 4) ∧
  [MarkerKind.bitZero, .bitOne, .startBit, .stopBit, .errFraming, .errToggling, .stopShort].map
    MarkerKind.code = [0, 1, 2, 3, 4, 5, 6]

/-! The parameters. -/

/-- 00 R5: the values of the parameters that State.reset carries, those marked source and those the spec decided, and
what they make of the version codes and of half a bit. -/
def Obligations.ParameterValues : Prop :=
  State.reset.config = cfg ∧
  [Version.v1, .v1Extended, .v2].map cfg.minBrk.get = [13, 13, 11] ∧
  [Version.v1, .v1Extended, .v2].map cfg.xExtra.get = [3, 3, 1] ∧
  cfg.crcInit = 0xFFFF ∧ cfg.crcPoly = 0x1021 ∧ cfg.ackFixed = 0x7E ∧ cfg.ackValueReset = 0x7E ∧
  cfg.posW = 64 ∧ (∀ spb, half cfg spb = spb / 2) ∧ cfg.nodeAckSize = 256 ∧
  [0, 1, 2, 3].map (Version.ofCode cfg) = [some .v1, some .v1Extended, some .v2, none] ∧
  cfg.v2InstrBit = 0 ∧ cfg.v2LenLsb = 1 ∧ cfg.v2FselBit = 4 ∧ cfg.v2DirBit = 5 ∧
  cfg.v1FselBit = 0 ∧ cfg.v1DirBit = 1 ∧ cfg.v1F3Lsb = 5 ∧ cfg.v1F6Lsb = 2 ∧
  [Version.v1, .v1Extended, .v2].map cfg.dirAckLevel.get = [false, false, false] ∧
  [Version.v1, .v1Extended, .v2].map cfg.crcRxLowFirst.get = [false, false, true] ∧
  [Version.v1, .v1Extended, .v2].map cfg.lsbFirst.get = [false, false, true] ∧
  [Version.v1, .v1Extended, .v2].map cfg.crcPairs.get = [false, false, true]
end

