-- ==== Sys2Proof/Laws/State.lean ====
section
/-! SUPPORT. One lemma per field of State and named update, true by unfolding, so that no proof unfolds a record
update. -/

namespace Sys2Proof.Machine

@[simp] theorem State.emit_config (s : State) (c : SinkCall) : (s.emit c).config = s.config := rfl
@[simp] theorem State.emit_protocol (s : State) (c : SinkCall) : (s.emit c).protocol = s.protocol := rfl
@[simp] theorem State.emit_state (s : State) (c : SinkCall) : (s.emit c).state = s.state := rfl
@[simp] theorem State.emit_pos (s : State) (c : SinkCall) : (s.emit c).pos = s.pos := rfl
@[simp] theorem State.emit_id1 (s : State) (c : SinkCall) : (s.emit c).id1 = s.id1 := rfl
@[simp] theorem State.emit_id2 (s : State) (c : SinkCall) : (s.emit c).id2 = s.id2 := rfl
@[simp] theorem State.emit_bodyLen (s : State) (c : SinkCall) : (s.emit c).bodyLen = s.bodyLen := rfl
@[simp] theorem State.emit_remaining (s : State) (c : SinkCall) : (s.emit c).remaining = s.remaining := rfl
@[simp] theorem State.emit_crc (s : State) (c : SinkCall) : (s.emit c).crc = s.crc := rfl
@[simp] theorem State.emit_crcPar (s : State) (c : SinkCall) : (s.emit c).crcPar = s.crcPar := rfl
@[simp] theorem State.emit_crcHold (s : State) (c : SinkCall) : (s.emit c).crcHold = s.crcHold := rfl
@[simp] theorem State.emit_crcB1 (s : State) (c : SinkCall) : (s.emit c).crcB1 = s.crcB1 := rfl
@[simp] theorem State.emit_ackAccept (s : State) (c : SinkCall) : (s.emit c).ackAccept = s.ackAccept := rfl
@[simp] theorem State.emit_pendingBreak (s : State) (c : SinkCall) : (s.emit c).pendingBreak = s.pendingBreak := rfl
@[simp] theorem State.emit_pbStart (s : State) (c : SinkCall) : (s.emit c).pbStart = s.pbStart := rfl
@[simp] theorem State.emit_pbEnd (s : State) (c : SinkCall) : (s.emit c).pbEnd = s.pbEnd := rfl
@[simp] theorem State.emit_pbBits (s : State) (c : SinkCall) : (s.emit c).pbBits = s.pbBits := rfl
@[simp] theorem State.emit_pbFerr (s : State) (c : SinkCall) : (s.emit c).pbFerr = s.pbFerr := rfl
@[simp] theorem State.emit_lastEnd (s : State) (c : SinkCall) : (s.emit c).lastEnd = s.lastEnd := rfl
@[simp] theorem State.emit_brkBits (s : State) (c : SinkCall) : (s.emit c).brkBits = s.brkBits := rfl
@[simp] theorem State.emit_version (s : State) (c : SinkCall) : (s.emit c).version = s.version := rfl
@[simp] theorem State.emit_spb (s : State) (c : SinkCall) : (s.emit c).spb = s.spb := rfl
@[simp] theorem State.emit_ackEn (s : State) (c : SinkCall) : (s.emit c).ackEn = s.ackEn := rfl
@[simp] theorem State.emit_ackValue (s : State) (c : SinkCall) : (s.emit c).ackValue = s.ackValue := rfl
@[simp] theorem State.emit_nodeAck (s : State) (c : SinkCall) : (s.emit c).nodeAck = s.nodeAck := rfl
@[simp] theorem State.emit_cancel (s : State) (c : SinkCall) : (s.emit c).cancel = s.cancel := rfl
@[simp] theorem State.emit_mode (s : State) (c : SinkCall) : (s.emit c).mode = s.mode := rfl
@[simp] theorem State.emit_doneCause (s : State) (c : SinkCall) : (s.emit c).doneCause = s.doneCause := rfl
@[simp] theorem State.emit_samples (s : State) (c : SinkCall) : (s.emit c).samples = s.samples := rfl
@[simp] theorem State.emit_streamEnded (s : State) (c : SinkCall) : (s.emit c).streamEnded = s.streamEnded := rfl
@[simp] theorem State.emit_sink (s : State) (c : SinkCall) : (s.emit c).sink = s.sink ++ [c] := rfl
@[simp] theorem State.emit_inbox (s : State) (c : SinkCall) : (s.emit c).inbox = s.inbox := rfl
@[simp] theorem State.emit_waiting (s : State) (c : SinkCall) : (s.emit c).waiting = s.waiting := rfl
@[simp] theorem State.emit_result (s : State) (c : SinkCall) : (s.emit c).result = s.result := rfl
@[simp] theorem State.emit_freeIndex (s : State) (c : SinkCall) : (s.emit c).freeIndex = s.freeIndex := rfl

@[simp] theorem State.emitUnit_config (s : State) (u : FrameUnit) : (s.emitUnit u).config = s.config := rfl
@[simp] theorem State.emitUnit_protocol (s : State) (u : FrameUnit) : (s.emitUnit u).protocol = s.protocol := rfl
@[simp] theorem State.emitUnit_state (s : State) (u : FrameUnit) : (s.emitUnit u).state = s.state := rfl
@[simp] theorem State.emitUnit_pos (s : State) (u : FrameUnit) : (s.emitUnit u).pos = s.pos := rfl
@[simp] theorem State.emitUnit_id1 (s : State) (u : FrameUnit) : (s.emitUnit u).id1 = s.id1 := rfl
@[simp] theorem State.emitUnit_id2 (s : State) (u : FrameUnit) : (s.emitUnit u).id2 = s.id2 := rfl
@[simp] theorem State.emitUnit_bodyLen (s : State) (u : FrameUnit) : (s.emitUnit u).bodyLen = s.bodyLen := rfl
@[simp] theorem State.emitUnit_remaining (s : State) (u : FrameUnit) : (s.emitUnit u).remaining = s.remaining := rfl
@[simp] theorem State.emitUnit_crc (s : State) (u : FrameUnit) : (s.emitUnit u).crc = s.crc := rfl
@[simp] theorem State.emitUnit_crcPar (s : State) (u : FrameUnit) : (s.emitUnit u).crcPar = s.crcPar := rfl
@[simp] theorem State.emitUnit_crcHold (s : State) (u : FrameUnit) : (s.emitUnit u).crcHold = s.crcHold := rfl
@[simp] theorem State.emitUnit_crcB1 (s : State) (u : FrameUnit) : (s.emitUnit u).crcB1 = s.crcB1 := rfl
@[simp] theorem State.emitUnit_ackAccept (s : State) (u : FrameUnit) : (s.emitUnit u).ackAccept = s.ackAccept := rfl
@[simp] theorem State.emitUnit_pendingBreak (s : State) (u : FrameUnit) : (s.emitUnit u).pendingBreak = s.pendingBreak := rfl
@[simp] theorem State.emitUnit_pbStart (s : State) (u : FrameUnit) : (s.emitUnit u).pbStart = s.pbStart := rfl
@[simp] theorem State.emitUnit_pbEnd (s : State) (u : FrameUnit) : (s.emitUnit u).pbEnd = s.pbEnd := rfl
@[simp] theorem State.emitUnit_pbBits (s : State) (u : FrameUnit) : (s.emitUnit u).pbBits = s.pbBits := rfl
@[simp] theorem State.emitUnit_pbFerr (s : State) (u : FrameUnit) : (s.emitUnit u).pbFerr = s.pbFerr := rfl
@[simp] theorem State.emitUnit_lastEnd (s : State) (u : FrameUnit) : (s.emitUnit u).lastEnd = u.endPos := rfl
@[simp] theorem State.emitUnit_brkBits (s : State) (u : FrameUnit) : (s.emitUnit u).brkBits = s.brkBits := rfl
@[simp] theorem State.emitUnit_version (s : State) (u : FrameUnit) : (s.emitUnit u).version = s.version := rfl
@[simp] theorem State.emitUnit_spb (s : State) (u : FrameUnit) : (s.emitUnit u).spb = s.spb := rfl
@[simp] theorem State.emitUnit_ackEn (s : State) (u : FrameUnit) : (s.emitUnit u).ackEn = s.ackEn := rfl
@[simp] theorem State.emitUnit_ackValue (s : State) (u : FrameUnit) : (s.emitUnit u).ackValue = s.ackValue := rfl
@[simp] theorem State.emitUnit_nodeAck (s : State) (u : FrameUnit) : (s.emitUnit u).nodeAck = s.nodeAck := rfl
@[simp] theorem State.emitUnit_cancel (s : State) (u : FrameUnit) : (s.emitUnit u).cancel = s.cancel := rfl
@[simp] theorem State.emitUnit_mode (s : State) (u : FrameUnit) : (s.emitUnit u).mode = s.mode := rfl
@[simp] theorem State.emitUnit_doneCause (s : State) (u : FrameUnit) : (s.emitUnit u).doneCause = s.doneCause := rfl
@[simp] theorem State.emitUnit_samples (s : State) (u : FrameUnit) : (s.emitUnit u).samples = s.samples := rfl
@[simp] theorem State.emitUnit_streamEnded (s : State) (u : FrameUnit) : (s.emitUnit u).streamEnded = s.streamEnded := rfl
@[simp] theorem State.emitUnit_sink (s : State) (u : FrameUnit) : (s.emitUnit u).sink = s.sink ++ [.emitFrame u] := rfl
@[simp] theorem State.emitUnit_inbox (s : State) (u : FrameUnit) : (s.emitUnit u).inbox = s.inbox := rfl
@[simp] theorem State.emitUnit_waiting (s : State) (u : FrameUnit) : (s.emitUnit u).waiting = s.waiting := rfl
@[simp] theorem State.emitUnit_result (s : State) (u : FrameUnit) : (s.emitUnit u).result = s.result := rfl
@[simp] theorem State.emitUnit_freeIndex (s : State) (u : FrameUnit) : (s.emitUnit u).freeIndex = s.freeIndex := rfl

@[simp] theorem State.goto_config (s : State) (st : FrameState) : (s.goto st).config = s.config := rfl
@[simp] theorem State.goto_protocol (s : State) (st : FrameState) : (s.goto st).protocol = s.protocol := rfl
@[simp] theorem State.goto_state (s : State) (st : FrameState) : (s.goto st).state = st := rfl
@[simp] theorem State.goto_pos (s : State) (st : FrameState) : (s.goto st).pos = s.pos := rfl
@[simp] theorem State.goto_id1 (s : State) (st : FrameState) : (s.goto st).id1 = s.id1 := rfl
@[simp] theorem State.goto_id2 (s : State) (st : FrameState) : (s.goto st).id2 = s.id2 := rfl
@[simp] theorem State.goto_bodyLen (s : State) (st : FrameState) : (s.goto st).bodyLen = s.bodyLen := rfl
@[simp] theorem State.goto_remaining (s : State) (st : FrameState) : (s.goto st).remaining = s.remaining := rfl
@[simp] theorem State.goto_crc (s : State) (st : FrameState) : (s.goto st).crc = s.crc := rfl
@[simp] theorem State.goto_crcPar (s : State) (st : FrameState) : (s.goto st).crcPar = s.crcPar := rfl
@[simp] theorem State.goto_crcHold (s : State) (st : FrameState) : (s.goto st).crcHold = s.crcHold := rfl
@[simp] theorem State.goto_crcB1 (s : State) (st : FrameState) : (s.goto st).crcB1 = s.crcB1 := rfl
@[simp] theorem State.goto_ackAccept (s : State) (st : FrameState) : (s.goto st).ackAccept = s.ackAccept := rfl
@[simp] theorem State.goto_pendingBreak (s : State) (st : FrameState) : (s.goto st).pendingBreak = s.pendingBreak := rfl
@[simp] theorem State.goto_pbStart (s : State) (st : FrameState) : (s.goto st).pbStart = s.pbStart := rfl
@[simp] theorem State.goto_pbEnd (s : State) (st : FrameState) : (s.goto st).pbEnd = s.pbEnd := rfl
@[simp] theorem State.goto_pbBits (s : State) (st : FrameState) : (s.goto st).pbBits = s.pbBits := rfl
@[simp] theorem State.goto_pbFerr (s : State) (st : FrameState) : (s.goto st).pbFerr = s.pbFerr := rfl
@[simp] theorem State.goto_lastEnd (s : State) (st : FrameState) : (s.goto st).lastEnd = s.lastEnd := rfl
@[simp] theorem State.goto_brkBits (s : State) (st : FrameState) : (s.goto st).brkBits = s.brkBits := rfl
@[simp] theorem State.goto_version (s : State) (st : FrameState) : (s.goto st).version = s.version := rfl
@[simp] theorem State.goto_spb (s : State) (st : FrameState) : (s.goto st).spb = s.spb := rfl
@[simp] theorem State.goto_ackEn (s : State) (st : FrameState) : (s.goto st).ackEn = s.ackEn := rfl
@[simp] theorem State.goto_ackValue (s : State) (st : FrameState) : (s.goto st).ackValue = s.ackValue := rfl
@[simp] theorem State.goto_nodeAck (s : State) (st : FrameState) : (s.goto st).nodeAck = s.nodeAck := rfl
@[simp] theorem State.goto_cancel (s : State) (st : FrameState) : (s.goto st).cancel = s.cancel := rfl
@[simp] theorem State.goto_mode (s : State) (st : FrameState) : (s.goto st).mode = s.mode := rfl
@[simp] theorem State.goto_doneCause (s : State) (st : FrameState) : (s.goto st).doneCause = s.doneCause := rfl
@[simp] theorem State.goto_samples (s : State) (st : FrameState) : (s.goto st).samples = s.samples := rfl
@[simp] theorem State.goto_streamEnded (s : State) (st : FrameState) : (s.goto st).streamEnded = s.streamEnded := rfl
@[simp] theorem State.goto_sink (s : State) (st : FrameState) : (s.goto st).sink = s.sink := rfl
@[simp] theorem State.goto_inbox (s : State) (st : FrameState) : (s.goto st).inbox = s.inbox := rfl
@[simp] theorem State.goto_waiting (s : State) (st : FrameState) : (s.goto st).waiting = s.waiting := rfl
@[simp] theorem State.goto_result (s : State) (st : FrameState) : (s.goto st).result = s.result := rfl
@[simp] theorem State.goto_freeIndex (s : State) (st : FrameState) : (s.goto st).freeIndex = s.freeIndex := rfl

@[simp] theorem State.returns_config (s : State) (r : Result) : (s.returns r).config = s.config := rfl
@[simp] theorem State.returns_protocol (s : State) (r : Result) : (s.returns r).protocol = s.protocol := rfl
@[simp] theorem State.returns_state (s : State) (r : Result) : (s.returns r).state = s.state := rfl
@[simp] theorem State.returns_pos (s : State) (r : Result) : (s.returns r).pos = s.pos := rfl
@[simp] theorem State.returns_id1 (s : State) (r : Result) : (s.returns r).id1 = s.id1 := rfl
@[simp] theorem State.returns_id2 (s : State) (r : Result) : (s.returns r).id2 = s.id2 := rfl
@[simp] theorem State.returns_bodyLen (s : State) (r : Result) : (s.returns r).bodyLen = s.bodyLen := rfl
@[simp] theorem State.returns_remaining (s : State) (r : Result) : (s.returns r).remaining = s.remaining := rfl
@[simp] theorem State.returns_crc (s : State) (r : Result) : (s.returns r).crc = s.crc := rfl
@[simp] theorem State.returns_crcPar (s : State) (r : Result) : (s.returns r).crcPar = s.crcPar := rfl
@[simp] theorem State.returns_crcHold (s : State) (r : Result) : (s.returns r).crcHold = s.crcHold := rfl
@[simp] theorem State.returns_crcB1 (s : State) (r : Result) : (s.returns r).crcB1 = s.crcB1 := rfl
@[simp] theorem State.returns_ackAccept (s : State) (r : Result) : (s.returns r).ackAccept = s.ackAccept := rfl
@[simp] theorem State.returns_pendingBreak (s : State) (r : Result) : (s.returns r).pendingBreak = s.pendingBreak := rfl
@[simp] theorem State.returns_pbStart (s : State) (r : Result) : (s.returns r).pbStart = s.pbStart := rfl
@[simp] theorem State.returns_pbEnd (s : State) (r : Result) : (s.returns r).pbEnd = s.pbEnd := rfl
@[simp] theorem State.returns_pbBits (s : State) (r : Result) : (s.returns r).pbBits = s.pbBits := rfl
@[simp] theorem State.returns_pbFerr (s : State) (r : Result) : (s.returns r).pbFerr = s.pbFerr := rfl
@[simp] theorem State.returns_lastEnd (s : State) (r : Result) : (s.returns r).lastEnd = s.lastEnd := rfl
@[simp] theorem State.returns_brkBits (s : State) (r : Result) : (s.returns r).brkBits = s.brkBits := rfl
@[simp] theorem State.returns_version (s : State) (r : Result) : (s.returns r).version = s.version := rfl
@[simp] theorem State.returns_spb (s : State) (r : Result) : (s.returns r).spb = s.spb := rfl
@[simp] theorem State.returns_ackEn (s : State) (r : Result) : (s.returns r).ackEn = s.ackEn := rfl
@[simp] theorem State.returns_ackValue (s : State) (r : Result) : (s.returns r).ackValue = s.ackValue := rfl
@[simp] theorem State.returns_nodeAck (s : State) (r : Result) : (s.returns r).nodeAck = s.nodeAck := rfl
@[simp] theorem State.returns_cancel (s : State) (r : Result) : (s.returns r).cancel = s.cancel := rfl
@[simp] theorem State.returns_mode (s : State) (r : Result) : (s.returns r).mode = s.mode := rfl
@[simp] theorem State.returns_doneCause (s : State) (r : Result) : (s.returns r).doneCause = s.doneCause := rfl
@[simp] theorem State.returns_samples (s : State) (r : Result) : (s.returns r).samples = s.samples := rfl
@[simp] theorem State.returns_streamEnded (s : State) (r : Result) : (s.returns r).streamEnded = s.streamEnded := rfl
@[simp] theorem State.returns_sink (s : State) (r : Result) : (s.returns r).sink = s.sink := rfl
@[simp] theorem State.returns_inbox (s : State) (r : Result) : (s.returns r).inbox = s.inbox := rfl
@[simp] theorem State.returns_waiting (s : State) (r : Result) : (s.returns r).waiting = s.waiting := rfl
@[simp] theorem State.returns_result (s : State) (r : Result) : (s.returns r).result = r := rfl
@[simp] theorem State.returns_freeIndex (s : State) (r : Result) : (s.returns r).freeIndex = s.freeIndex := rfl

@[simp] theorem State.terminate_config (s : State) (d : DoneCause) : (s.terminate d).config = s.config := rfl
@[simp] theorem State.terminate_protocol (s : State) (d : DoneCause) : (s.terminate d).protocol = s.protocol := rfl
@[simp] theorem State.terminate_state (s : State) (d : DoneCause) : (s.terminate d).state = s.state := rfl
@[simp] theorem State.terminate_pos (s : State) (d : DoneCause) : (s.terminate d).pos = s.pos := rfl
@[simp] theorem State.terminate_id1 (s : State) (d : DoneCause) : (s.terminate d).id1 = s.id1 := rfl
@[simp] theorem State.terminate_id2 (s : State) (d : DoneCause) : (s.terminate d).id2 = s.id2 := rfl
@[simp] theorem State.terminate_bodyLen (s : State) (d : DoneCause) : (s.terminate d).bodyLen = s.bodyLen := rfl
@[simp] theorem State.terminate_remaining (s : State) (d : DoneCause) : (s.terminate d).remaining = s.remaining := rfl
@[simp] theorem State.terminate_crc (s : State) (d : DoneCause) : (s.terminate d).crc = s.crc := rfl
@[simp] theorem State.terminate_crcPar (s : State) (d : DoneCause) : (s.terminate d).crcPar = s.crcPar := rfl
@[simp] theorem State.terminate_crcHold (s : State) (d : DoneCause) : (s.terminate d).crcHold = s.crcHold := rfl
@[simp] theorem State.terminate_crcB1 (s : State) (d : DoneCause) : (s.terminate d).crcB1 = s.crcB1 := rfl
@[simp] theorem State.terminate_ackAccept (s : State) (d : DoneCause) : (s.terminate d).ackAccept = s.ackAccept := rfl
@[simp] theorem State.terminate_pendingBreak (s : State) (d : DoneCause) : (s.terminate d).pendingBreak = s.pendingBreak := rfl
@[simp] theorem State.terminate_pbStart (s : State) (d : DoneCause) : (s.terminate d).pbStart = s.pbStart := rfl
@[simp] theorem State.terminate_pbEnd (s : State) (d : DoneCause) : (s.terminate d).pbEnd = s.pbEnd := rfl
@[simp] theorem State.terminate_pbBits (s : State) (d : DoneCause) : (s.terminate d).pbBits = s.pbBits := rfl
@[simp] theorem State.terminate_pbFerr (s : State) (d : DoneCause) : (s.terminate d).pbFerr = s.pbFerr := rfl
@[simp] theorem State.terminate_lastEnd (s : State) (d : DoneCause) : (s.terminate d).lastEnd = s.lastEnd := rfl
@[simp] theorem State.terminate_brkBits (s : State) (d : DoneCause) : (s.terminate d).brkBits = s.brkBits := rfl
@[simp] theorem State.terminate_version (s : State) (d : DoneCause) : (s.terminate d).version = s.version := rfl
@[simp] theorem State.terminate_spb (s : State) (d : DoneCause) : (s.terminate d).spb = s.spb := rfl
@[simp] theorem State.terminate_ackEn (s : State) (d : DoneCause) : (s.terminate d).ackEn = s.ackEn := rfl
@[simp] theorem State.terminate_ackValue (s : State) (d : DoneCause) : (s.terminate d).ackValue = s.ackValue := rfl
@[simp] theorem State.terminate_nodeAck (s : State) (d : DoneCause) : (s.terminate d).nodeAck = s.nodeAck := rfl
@[simp] theorem State.terminate_cancel (s : State) (d : DoneCause) : (s.terminate d).cancel = s.cancel := rfl
@[simp] theorem State.terminate_mode (s : State) (d : DoneCause) : (s.terminate d).mode = .done := rfl
@[simp] theorem State.terminate_doneCause (s : State) (d : DoneCause) : (s.terminate d).doneCause = d := rfl
@[simp] theorem State.terminate_samples (s : State) (d : DoneCause) : (s.terminate d).samples = s.samples := rfl
@[simp] theorem State.terminate_streamEnded (s : State) (d : DoneCause) : (s.terminate d).streamEnded = s.streamEnded := rfl
@[simp] theorem State.terminate_sink (s : State) (d : DoneCause) : (s.terminate d).sink = s.sink := rfl
@[simp] theorem State.terminate_inbox (s : State) (d : DoneCause) : (s.terminate d).inbox = s.inbox := rfl
@[simp] theorem State.terminate_waiting (s : State) (d : DoneCause) : (s.terminate d).waiting = false := rfl
@[simp] theorem State.terminate_result (s : State) (d : DoneCause) : (s.terminate d).result = s.result := rfl
@[simp] theorem State.terminate_freeIndex (s : State) (d : DoneCause) : (s.terminate d).freeIndex = s.freeIndex := rfl

@[simp] theorem State.enterMissingByte_config (s : State) (r : BreakFieldRec) : (s.enterMissingByte r).config = s.config := rfl
@[simp] theorem State.enterMissingByte_protocol (s : State) (r : BreakFieldRec) : (s.enterMissingByte r).protocol = s.protocol := rfl
@[simp] theorem State.enterMissingByte_state (s : State) (r : BreakFieldRec) : (s.enterMissingByte r).state = .noFrame := rfl
@[simp] theorem State.enterMissingByte_pos (s : State) (r : BreakFieldRec) : (s.enterMissingByte r).pos = s.pos := rfl
@[simp] theorem State.enterMissingByte_id1 (s : State) (r : BreakFieldRec) : (s.enterMissingByte r).id1 = s.id1 := rfl
@[simp] theorem State.enterMissingByte_id2 (s : State) (r : BreakFieldRec) : (s.enterMissingByte r).id2 = s.id2 := rfl
@[simp] theorem State.enterMissingByte_bodyLen (s : State) (r : BreakFieldRec) : (s.enterMissingByte r).bodyLen = s.bodyLen := rfl
@[simp] theorem State.enterMissingByte_remaining (s : State) (r : BreakFieldRec) : (s.enterMissingByte r).remaining = s.remaining := rfl
@[simp] theorem State.enterMissingByte_crc (s : State) (r : BreakFieldRec) : (s.enterMissingByte r).crc = s.crc := rfl
@[simp] theorem State.enterMissingByte_crcPar (s : State) (r : BreakFieldRec) : (s.enterMissingByte r).crcPar = s.crcPar := rfl
@[simp] theorem State.enterMissingByte_crcHold (s : State) (r : BreakFieldRec) : (s.enterMissingByte r).crcHold = s.crcHold := rfl
@[simp] theorem State.enterMissingByte_crcB1 (s : State) (r : BreakFieldRec) : (s.enterMissingByte r).crcB1 = s.crcB1 := rfl
@[simp] theorem State.enterMissingByte_ackAccept (s : State) (r : BreakFieldRec) : (s.enterMissingByte r).ackAccept = s.ackAccept := rfl
@[simp] theorem State.enterMissingByte_pendingBreak (s : State) (r : BreakFieldRec) : (s.enterMissingByte r).pendingBreak = true := rfl
@[simp] theorem State.enterMissingByte_pbStart (s : State) (r : BreakFieldRec) : (s.enterMissingByte r).pbStart = r.startPos := rfl
@[simp] theorem State.enterMissingByte_pbEnd (s : State) (r : BreakFieldRec) : (s.enterMissingByte r).pbEnd = r.endPos := rfl
@[simp] theorem State.enterMissingByte_pbBits (s : State) (r : BreakFieldRec) : (s.enterMissingByte r).pbBits = r.bits := rfl
@[simp] theorem State.enterMissingByte_pbFerr (s : State) (r : BreakFieldRec) : (s.enterMissingByte r).pbFerr = r.ferr := rfl
@[simp] theorem State.enterMissingByte_lastEnd (s : State) (r : BreakFieldRec) : (s.enterMissingByte r).lastEnd = s.lastEnd := rfl
@[simp] theorem State.enterMissingByte_brkBits (s : State) (r : BreakFieldRec) : (s.enterMissingByte r).brkBits = s.brkBits := rfl
@[simp] theorem State.enterMissingByte_version (s : State) (r : BreakFieldRec) : (s.enterMissingByte r).version = s.version := rfl
@[simp] theorem State.enterMissingByte_spb (s : State) (r : BreakFieldRec) : (s.enterMissingByte r).spb = s.spb := rfl
@[simp] theorem State.enterMissingByte_ackEn (s : State) (r : BreakFieldRec) : (s.enterMissingByte r).ackEn = s.ackEn := rfl
@[simp] theorem State.enterMissingByte_ackValue (s : State) (r : BreakFieldRec) : (s.enterMissingByte r).ackValue = s.ackValue := rfl
@[simp] theorem State.enterMissingByte_nodeAck (s : State) (r : BreakFieldRec) : (s.enterMissingByte r).nodeAck = s.nodeAck := rfl
@[simp] theorem State.enterMissingByte_cancel (s : State) (r : BreakFieldRec) : (s.enterMissingByte r).cancel = s.cancel := rfl
@[simp] theorem State.enterMissingByte_mode (s : State) (r : BreakFieldRec) : (s.enterMissingByte r).mode = s.mode := rfl
@[simp] theorem State.enterMissingByte_doneCause (s : State) (r : BreakFieldRec) : (s.enterMissingByte r).doneCause = s.doneCause := rfl
@[simp] theorem State.enterMissingByte_samples (s : State) (r : BreakFieldRec) : (s.enterMissingByte r).samples = s.samples := rfl
@[simp] theorem State.enterMissingByte_streamEnded (s : State) (r : BreakFieldRec) : (s.enterMissingByte r).streamEnded = s.streamEnded := rfl
@[simp] theorem State.enterMissingByte_sink (s : State) (r : BreakFieldRec) : (s.enterMissingByte r).sink = s.sink ++ [.cancel, .emitMissingByte s.lastEnd r.startPos] := rfl
@[simp] theorem State.enterMissingByte_inbox (s : State) (r : BreakFieldRec) : (s.enterMissingByte r).inbox = s.inbox := rfl
@[simp] theorem State.enterMissingByte_waiting (s : State) (r : BreakFieldRec) : (s.enterMissingByte r).waiting = s.waiting := rfl
@[simp] theorem State.enterMissingByte_result (s : State) (r : BreakFieldRec) : (s.enterMissingByte r).result = s.result := rfl
@[simp] theorem State.enterMissingByte_freeIndex (s : State) (r : BreakFieldRec) : (s.enterMissingByte r).freeIndex = s.freeIndex := rfl

@[simp] theorem State.clearPending_config (s : State) : s.clearPending.config = s.config := rfl
@[simp] theorem State.clearPending_protocol (s : State) : s.clearPending.protocol = s.protocol := rfl
@[simp] theorem State.clearPending_state (s : State) : s.clearPending.state = s.state := rfl
@[simp] theorem State.clearPending_pos (s : State) : s.clearPending.pos = s.pos := rfl
@[simp] theorem State.clearPending_id1 (s : State) : s.clearPending.id1 = s.id1 := rfl
@[simp] theorem State.clearPending_id2 (s : State) : s.clearPending.id2 = s.id2 := rfl
@[simp] theorem State.clearPending_bodyLen (s : State) : s.clearPending.bodyLen = s.bodyLen := rfl
@[simp] theorem State.clearPending_remaining (s : State) : s.clearPending.remaining = s.remaining := rfl
@[simp] theorem State.clearPending_crc (s : State) : s.clearPending.crc = s.crc := rfl
@[simp] theorem State.clearPending_crcPar (s : State) : s.clearPending.crcPar = s.crcPar := rfl
@[simp] theorem State.clearPending_crcHold (s : State) : s.clearPending.crcHold = s.crcHold := rfl
@[simp] theorem State.clearPending_crcB1 (s : State) : s.clearPending.crcB1 = s.crcB1 := rfl
@[simp] theorem State.clearPending_ackAccept (s : State) : s.clearPending.ackAccept = s.ackAccept := rfl
@[simp] theorem State.clearPending_pendingBreak (s : State) : s.clearPending.pendingBreak = false := rfl
@[simp] theorem State.clearPending_pbStart (s : State) : s.clearPending.pbStart = s.pbStart := rfl
@[simp] theorem State.clearPending_pbEnd (s : State) : s.clearPending.pbEnd = s.pbEnd := rfl
@[simp] theorem State.clearPending_pbBits (s : State) : s.clearPending.pbBits = s.pbBits := rfl
@[simp] theorem State.clearPending_pbFerr (s : State) : s.clearPending.pbFerr = s.pbFerr := rfl
@[simp] theorem State.clearPending_lastEnd (s : State) : s.clearPending.lastEnd = s.lastEnd := rfl
@[simp] theorem State.clearPending_brkBits (s : State) : s.clearPending.brkBits = s.brkBits := rfl
@[simp] theorem State.clearPending_version (s : State) : s.clearPending.version = s.version := rfl
@[simp] theorem State.clearPending_spb (s : State) : s.clearPending.spb = s.spb := rfl
@[simp] theorem State.clearPending_ackEn (s : State) : s.clearPending.ackEn = s.ackEn := rfl
@[simp] theorem State.clearPending_ackValue (s : State) : s.clearPending.ackValue = s.ackValue := rfl
@[simp] theorem State.clearPending_nodeAck (s : State) : s.clearPending.nodeAck = s.nodeAck := rfl
@[simp] theorem State.clearPending_cancel (s : State) : s.clearPending.cancel = s.cancel := rfl
@[simp] theorem State.clearPending_mode (s : State) : s.clearPending.mode = s.mode := rfl
@[simp] theorem State.clearPending_doneCause (s : State) : s.clearPending.doneCause = s.doneCause := rfl
@[simp] theorem State.clearPending_samples (s : State) : s.clearPending.samples = s.samples := rfl
@[simp] theorem State.clearPending_streamEnded (s : State) : s.clearPending.streamEnded = s.streamEnded := rfl
@[simp] theorem State.clearPending_sink (s : State) : s.clearPending.sink = s.sink := rfl
@[simp] theorem State.clearPending_inbox (s : State) : s.clearPending.inbox = s.inbox := rfl
@[simp] theorem State.clearPending_waiting (s : State) : s.clearPending.waiting = s.waiting := rfl
@[simp] theorem State.clearPending_result (s : State) : s.clearPending.result = s.result := rfl
@[simp] theorem State.clearPending_freeIndex (s : State) : s.clearPending.freeIndex = s.freeIndex := rfl

@[simp] theorem State.atCursor_config (s : State) (c : Cursor) : (s.atCursor c).config = s.config := rfl
@[simp] theorem State.atCursor_protocol (s : State) (c : Cursor) : (s.atCursor c).protocol = s.protocol := rfl
@[simp] theorem State.atCursor_state (s : State) (c : Cursor) : (s.atCursor c).state = s.state := rfl
@[simp] theorem State.atCursor_pos (s : State) (c : Cursor) : (s.atCursor c).pos = c.pos := rfl
@[simp] theorem State.atCursor_id1 (s : State) (c : Cursor) : (s.atCursor c).id1 = s.id1 := rfl
@[simp] theorem State.atCursor_id2 (s : State) (c : Cursor) : (s.atCursor c).id2 = s.id2 := rfl
@[simp] theorem State.atCursor_bodyLen (s : State) (c : Cursor) : (s.atCursor c).bodyLen = s.bodyLen := rfl
@[simp] theorem State.atCursor_remaining (s : State) (c : Cursor) : (s.atCursor c).remaining = s.remaining := rfl
@[simp] theorem State.atCursor_crc (s : State) (c : Cursor) : (s.atCursor c).crc = s.crc := rfl
@[simp] theorem State.atCursor_crcPar (s : State) (c : Cursor) : (s.atCursor c).crcPar = s.crcPar := rfl
@[simp] theorem State.atCursor_crcHold (s : State) (c : Cursor) : (s.atCursor c).crcHold = s.crcHold := rfl
@[simp] theorem State.atCursor_crcB1 (s : State) (c : Cursor) : (s.atCursor c).crcB1 = s.crcB1 := rfl
@[simp] theorem State.atCursor_ackAccept (s : State) (c : Cursor) : (s.atCursor c).ackAccept = s.ackAccept := rfl
@[simp] theorem State.atCursor_pendingBreak (s : State) (c : Cursor) : (s.atCursor c).pendingBreak = s.pendingBreak := rfl
@[simp] theorem State.atCursor_pbStart (s : State) (c : Cursor) : (s.atCursor c).pbStart = s.pbStart := rfl
@[simp] theorem State.atCursor_pbEnd (s : State) (c : Cursor) : (s.atCursor c).pbEnd = s.pbEnd := rfl
@[simp] theorem State.atCursor_pbBits (s : State) (c : Cursor) : (s.atCursor c).pbBits = s.pbBits := rfl
@[simp] theorem State.atCursor_pbFerr (s : State) (c : Cursor) : (s.atCursor c).pbFerr = s.pbFerr := rfl
@[simp] theorem State.atCursor_lastEnd (s : State) (c : Cursor) : (s.atCursor c).lastEnd = s.lastEnd := rfl
@[simp] theorem State.atCursor_brkBits (s : State) (c : Cursor) : (s.atCursor c).brkBits = s.brkBits := rfl
@[simp] theorem State.atCursor_version (s : State) (c : Cursor) : (s.atCursor c).version = s.version := rfl
@[simp] theorem State.atCursor_spb (s : State) (c : Cursor) : (s.atCursor c).spb = s.spb := rfl
@[simp] theorem State.atCursor_ackEn (s : State) (c : Cursor) : (s.atCursor c).ackEn = s.ackEn := rfl
@[simp] theorem State.atCursor_ackValue (s : State) (c : Cursor) : (s.atCursor c).ackValue = s.ackValue := rfl
@[simp] theorem State.atCursor_nodeAck (s : State) (c : Cursor) : (s.atCursor c).nodeAck = s.nodeAck := rfl
@[simp] theorem State.atCursor_cancel (s : State) (c : Cursor) : (s.atCursor c).cancel = s.cancel := rfl
@[simp] theorem State.atCursor_mode (s : State) (c : Cursor) : (s.atCursor c).mode = s.mode := rfl
@[simp] theorem State.atCursor_doneCause (s : State) (c : Cursor) : (s.atCursor c).doneCause = s.doneCause := rfl
@[simp] theorem State.atCursor_samples (s : State) (c : Cursor) : (s.atCursor c).samples = s.samples := rfl
@[simp] theorem State.atCursor_streamEnded (s : State) (c : Cursor) : (s.atCursor c).streamEnded = s.streamEnded := rfl
@[simp] theorem State.atCursor_sink (s : State) (c : Cursor) : (s.atCursor c).sink = s.sink ++ c.trace := rfl
@[simp] theorem State.atCursor_inbox (s : State) (c : Cursor) : (s.atCursor c).inbox = s.inbox := rfl
@[simp] theorem State.atCursor_waiting (s : State) (c : Cursor) : (s.atCursor c).waiting = false := rfl
@[simp] theorem State.atCursor_result (s : State) (c : Cursor) : (s.atCursor c).result = s.result := rfl
@[simp] theorem State.atCursor_freeIndex (s : State) (c : Cursor) : (s.atCursor c).freeIndex = s.freeIndex := rfl

/-! `exhaustedAt`. -/

@[simp] theorem State.exhaustedAt_config (s : State) (c : Cursor) : (s.exhaustedAt c).config = s.config := rfl
@[simp] theorem State.exhaustedAt_protocol (s : State) (c : Cursor) : (s.exhaustedAt c).protocol = s.protocol := rfl
@[simp] theorem State.exhaustedAt_state (s : State) (c : Cursor) : (s.exhaustedAt c).state = s.state := rfl
@[simp] theorem State.exhaustedAt_pos (s : State) (c : Cursor) : (s.exhaustedAt c).pos = s.pos + Config.exhaustedAdvance s.freeIndex := rfl
@[simp] theorem State.exhaustedAt_id1 (s : State) (c : Cursor) : (s.exhaustedAt c).id1 = s.id1 := rfl
@[simp] theorem State.exhaustedAt_id2 (s : State) (c : Cursor) : (s.exhaustedAt c).id2 = s.id2 := rfl
@[simp] theorem State.exhaustedAt_bodyLen (s : State) (c : Cursor) : (s.exhaustedAt c).bodyLen = s.bodyLen := rfl
@[simp] theorem State.exhaustedAt_remaining (s : State) (c : Cursor) : (s.exhaustedAt c).remaining = s.remaining := rfl
@[simp] theorem State.exhaustedAt_crc (s : State) (c : Cursor) : (s.exhaustedAt c).crc = s.crc := rfl
@[simp] theorem State.exhaustedAt_crcPar (s : State) (c : Cursor) : (s.exhaustedAt c).crcPar = s.crcPar := rfl
@[simp] theorem State.exhaustedAt_crcHold (s : State) (c : Cursor) : (s.exhaustedAt c).crcHold = s.crcHold := rfl
@[simp] theorem State.exhaustedAt_crcB1 (s : State) (c : Cursor) : (s.exhaustedAt c).crcB1 = s.crcB1 := rfl
@[simp] theorem State.exhaustedAt_ackAccept (s : State) (c : Cursor) : (s.exhaustedAt c).ackAccept = s.ackAccept := rfl
@[simp] theorem State.exhaustedAt_pendingBreak (s : State) (c : Cursor) : (s.exhaustedAt c).pendingBreak = s.pendingBreak := rfl
@[simp] theorem State.exhaustedAt_pbStart (s : State) (c : Cursor) : (s.exhaustedAt c).pbStart = s.pbStart := rfl
@[simp] theorem State.exhaustedAt_pbEnd (s : State) (c : Cursor) : (s.exhaustedAt c).pbEnd = s.pbEnd := rfl
@[simp] theorem State.exhaustedAt_pbBits (s : State) (c : Cursor) : (s.exhaustedAt c).pbBits = s.pbBits := rfl
@[simp] theorem State.exhaustedAt_pbFerr (s : State) (c : Cursor) : (s.exhaustedAt c).pbFerr = s.pbFerr := rfl
@[simp] theorem State.exhaustedAt_lastEnd (s : State) (c : Cursor) : (s.exhaustedAt c).lastEnd = s.lastEnd := rfl
@[simp] theorem State.exhaustedAt_brkBits (s : State) (c : Cursor) : (s.exhaustedAt c).brkBits = s.brkBits := rfl
@[simp] theorem State.exhaustedAt_version (s : State) (c : Cursor) : (s.exhaustedAt c).version = s.version := rfl
@[simp] theorem State.exhaustedAt_spb (s : State) (c : Cursor) : (s.exhaustedAt c).spb = s.spb := rfl
@[simp] theorem State.exhaustedAt_ackEn (s : State) (c : Cursor) : (s.exhaustedAt c).ackEn = s.ackEn := rfl
@[simp] theorem State.exhaustedAt_ackValue (s : State) (c : Cursor) : (s.exhaustedAt c).ackValue = s.ackValue := rfl
@[simp] theorem State.exhaustedAt_nodeAck (s : State) (c : Cursor) : (s.exhaustedAt c).nodeAck = s.nodeAck := rfl
@[simp] theorem State.exhaustedAt_cancel (s : State) (c : Cursor) : (s.exhaustedAt c).cancel = s.cancel := rfl
@[simp] theorem State.exhaustedAt_mode (s : State) (c : Cursor) : (s.exhaustedAt c).mode = s.mode := rfl
@[simp] theorem State.exhaustedAt_doneCause (s : State) (c : Cursor) : (s.exhaustedAt c).doneCause = s.doneCause := rfl
@[simp] theorem State.exhaustedAt_samples (s : State) (c : Cursor) : (s.exhaustedAt c).samples = s.samples := rfl
@[simp] theorem State.exhaustedAt_streamEnded (s : State) (c : Cursor) : (s.exhaustedAt c).streamEnded = s.streamEnded := rfl
@[simp] theorem State.exhaustedAt_sink (s : State) (c : Cursor) : (s.exhaustedAt c).sink = s.sink ++ c.trace := rfl
@[simp] theorem State.exhaustedAt_inbox (s : State) (c : Cursor) : (s.exhaustedAt c).inbox = s.inbox := rfl
@[simp] theorem State.exhaustedAt_waiting (s : State) (c : Cursor) : (s.exhaustedAt c).waiting = s.waiting := rfl
@[simp] theorem State.exhaustedAt_result (s : State) (c : Cursor) : (s.exhaustedAt c).result = s.result := rfl
@[simp] theorem State.exhaustedAt_freeIndex (s : State) (c : Cursor) : (s.exhaustedAt c).freeIndex = s.freeIndex + 1 := rfl

@[simp] theorem State.crcReset_config (s : State) : s.crcReset.config = s.config := rfl
@[simp] theorem State.crcReset_protocol (s : State) : s.crcReset.protocol = s.protocol := rfl
@[simp] theorem State.crcReset_state (s : State) : s.crcReset.state = s.state := rfl
@[simp] theorem State.crcReset_pos (s : State) : s.crcReset.pos = s.pos := rfl
@[simp] theorem State.crcReset_id1 (s : State) : s.crcReset.id1 = s.id1 := rfl
@[simp] theorem State.crcReset_id2 (s : State) : s.crcReset.id2 = s.id2 := rfl
@[simp] theorem State.crcReset_bodyLen (s : State) : s.crcReset.bodyLen = s.bodyLen := rfl
@[simp] theorem State.crcReset_remaining (s : State) : s.crcReset.remaining = s.remaining := rfl
@[simp] theorem State.crcReset_crc (s : State) : s.crcReset.crc = s.config.crcInit := rfl
@[simp] theorem State.crcReset_crcPar (s : State) : s.crcReset.crcPar = false := rfl
@[simp] theorem State.crcReset_crcHold (s : State) : s.crcReset.crcHold = s.crcHold := rfl
@[simp] theorem State.crcReset_crcB1 (s : State) : s.crcReset.crcB1 = s.crcB1 := rfl
@[simp] theorem State.crcReset_ackAccept (s : State) : s.crcReset.ackAccept = s.ackAccept := rfl
@[simp] theorem State.crcReset_pendingBreak (s : State) : s.crcReset.pendingBreak = s.pendingBreak := rfl
@[simp] theorem State.crcReset_pbStart (s : State) : s.crcReset.pbStart = s.pbStart := rfl
@[simp] theorem State.crcReset_pbEnd (s : State) : s.crcReset.pbEnd = s.pbEnd := rfl
@[simp] theorem State.crcReset_pbBits (s : State) : s.crcReset.pbBits = s.pbBits := rfl
@[simp] theorem State.crcReset_pbFerr (s : State) : s.crcReset.pbFerr = s.pbFerr := rfl
@[simp] theorem State.crcReset_lastEnd (s : State) : s.crcReset.lastEnd = s.lastEnd := rfl
@[simp] theorem State.crcReset_brkBits (s : State) : s.crcReset.brkBits = s.brkBits := rfl
@[simp] theorem State.crcReset_version (s : State) : s.crcReset.version = s.version := rfl
@[simp] theorem State.crcReset_spb (s : State) : s.crcReset.spb = s.spb := rfl
@[simp] theorem State.crcReset_ackEn (s : State) : s.crcReset.ackEn = s.ackEn := rfl
@[simp] theorem State.crcReset_ackValue (s : State) : s.crcReset.ackValue = s.ackValue := rfl
@[simp] theorem State.crcReset_nodeAck (s : State) : s.crcReset.nodeAck = s.nodeAck := rfl
@[simp] theorem State.crcReset_cancel (s : State) : s.crcReset.cancel = s.cancel := rfl
@[simp] theorem State.crcReset_mode (s : State) : s.crcReset.mode = s.mode := rfl
@[simp] theorem State.crcReset_doneCause (s : State) : s.crcReset.doneCause = s.doneCause := rfl
@[simp] theorem State.crcReset_samples (s : State) : s.crcReset.samples = s.samples := rfl
@[simp] theorem State.crcReset_streamEnded (s : State) : s.crcReset.streamEnded = s.streamEnded := rfl
@[simp] theorem State.crcReset_sink (s : State) : s.crcReset.sink = s.sink := rfl
@[simp] theorem State.crcReset_inbox (s : State) : s.crcReset.inbox = s.inbox := rfl
@[simp] theorem State.crcReset_waiting (s : State) : s.crcReset.waiting = s.waiting := rfl
@[simp] theorem State.crcReset_result (s : State) : s.crcReset.result = s.result := rfl
@[simp] theorem State.crcReset_freeIndex (s : State) : s.crcReset.freeIndex = s.freeIndex := rfl

@[simp] theorem State.absorbByte_config (s : State) (b : Byte) : (s.absorbByte b).config = s.config := rfl
@[simp] theorem State.absorbByte_protocol (s : State) (b : Byte) : (s.absorbByte b).protocol = s.protocol := rfl
@[simp] theorem State.absorbByte_state (s : State) (b : Byte) : (s.absorbByte b).state = s.state := rfl
@[simp] theorem State.absorbByte_pos (s : State) (b : Byte) : (s.absorbByte b).pos = s.pos := rfl
@[simp] theorem State.absorbByte_id1 (s : State) (b : Byte) : (s.absorbByte b).id1 = s.id1 := rfl
@[simp] theorem State.absorbByte_id2 (s : State) (b : Byte) : (s.absorbByte b).id2 = s.id2 := rfl
@[simp] theorem State.absorbByte_bodyLen (s : State) (b : Byte) : (s.absorbByte b).bodyLen = s.bodyLen := rfl
@[simp] theorem State.absorbByte_remaining (s : State) (b : Byte) : (s.absorbByte b).remaining = s.remaining := rfl
@[simp] theorem State.absorbByte_crc (s : State) (b : Byte) : (s.absorbByte b).crc = crcAdd s.config s.crc b := rfl
@[simp] theorem State.absorbByte_crcPar (s : State) (b : Byte) : (s.absorbByte b).crcPar = s.crcPar := rfl
@[simp] theorem State.absorbByte_crcHold (s : State) (b : Byte) : (s.absorbByte b).crcHold = s.crcHold := rfl
@[simp] theorem State.absorbByte_crcB1 (s : State) (b : Byte) : (s.absorbByte b).crcB1 = s.crcB1 := rfl
@[simp] theorem State.absorbByte_ackAccept (s : State) (b : Byte) : (s.absorbByte b).ackAccept = s.ackAccept := rfl
@[simp] theorem State.absorbByte_pendingBreak (s : State) (b : Byte) : (s.absorbByte b).pendingBreak = s.pendingBreak := rfl
@[simp] theorem State.absorbByte_pbStart (s : State) (b : Byte) : (s.absorbByte b).pbStart = s.pbStart := rfl
@[simp] theorem State.absorbByte_pbEnd (s : State) (b : Byte) : (s.absorbByte b).pbEnd = s.pbEnd := rfl
@[simp] theorem State.absorbByte_pbBits (s : State) (b : Byte) : (s.absorbByte b).pbBits = s.pbBits := rfl
@[simp] theorem State.absorbByte_pbFerr (s : State) (b : Byte) : (s.absorbByte b).pbFerr = s.pbFerr := rfl
@[simp] theorem State.absorbByte_lastEnd (s : State) (b : Byte) : (s.absorbByte b).lastEnd = s.lastEnd := rfl
@[simp] theorem State.absorbByte_brkBits (s : State) (b : Byte) : (s.absorbByte b).brkBits = s.brkBits := rfl
@[simp] theorem State.absorbByte_version (s : State) (b : Byte) : (s.absorbByte b).version = s.version := rfl
@[simp] theorem State.absorbByte_spb (s : State) (b : Byte) : (s.absorbByte b).spb = s.spb := rfl
@[simp] theorem State.absorbByte_ackEn (s : State) (b : Byte) : (s.absorbByte b).ackEn = s.ackEn := rfl
@[simp] theorem State.absorbByte_ackValue (s : State) (b : Byte) : (s.absorbByte b).ackValue = s.ackValue := rfl
@[simp] theorem State.absorbByte_nodeAck (s : State) (b : Byte) : (s.absorbByte b).nodeAck = s.nodeAck := rfl
@[simp] theorem State.absorbByte_cancel (s : State) (b : Byte) : (s.absorbByte b).cancel = s.cancel := rfl
@[simp] theorem State.absorbByte_mode (s : State) (b : Byte) : (s.absorbByte b).mode = s.mode := rfl
@[simp] theorem State.absorbByte_doneCause (s : State) (b : Byte) : (s.absorbByte b).doneCause = s.doneCause := rfl
@[simp] theorem State.absorbByte_samples (s : State) (b : Byte) : (s.absorbByte b).samples = s.samples := rfl
@[simp] theorem State.absorbByte_streamEnded (s : State) (b : Byte) : (s.absorbByte b).streamEnded = s.streamEnded := rfl
@[simp] theorem State.absorbByte_sink (s : State) (b : Byte) : (s.absorbByte b).sink = s.sink := rfl
@[simp] theorem State.absorbByte_inbox (s : State) (b : Byte) : (s.absorbByte b).inbox = s.inbox := rfl
@[simp] theorem State.absorbByte_waiting (s : State) (b : Byte) : (s.absorbByte b).waiting = s.waiting := rfl
@[simp] theorem State.absorbByte_result (s : State) (b : Byte) : (s.absorbByte b).result = s.result := rfl
@[simp] theorem State.absorbByte_freeIndex (s : State) (b : Byte) : (s.absorbByte b).freeIndex = s.freeIndex := rfl

@[simp] theorem State.absorbPair_config (s : State) (b : Byte) : (s.absorbPair b).config = s.config := rfl
@[simp] theorem State.absorbPair_protocol (s : State) (b : Byte) : (s.absorbPair b).protocol = s.protocol := rfl
@[simp] theorem State.absorbPair_state (s : State) (b : Byte) : (s.absorbPair b).state = s.state := rfl
@[simp] theorem State.absorbPair_pos (s : State) (b : Byte) : (s.absorbPair b).pos = s.pos := rfl
@[simp] theorem State.absorbPair_id1 (s : State) (b : Byte) : (s.absorbPair b).id1 = s.id1 := rfl
@[simp] theorem State.absorbPair_id2 (s : State) (b : Byte) : (s.absorbPair b).id2 = s.id2 := rfl
@[simp] theorem State.absorbPair_bodyLen (s : State) (b : Byte) : (s.absorbPair b).bodyLen = s.bodyLen := rfl
@[simp] theorem State.absorbPair_remaining (s : State) (b : Byte) : (s.absorbPair b).remaining = s.remaining := rfl
@[simp] theorem State.absorbPair_crc (s : State) (b : Byte) : (s.absorbPair b).crc = if s.crcPar then crcAdd s.config (crcAdd s.config s.crc b) s.crcHold else s.crc := rfl
@[simp] theorem State.absorbPair_crcPar (s : State) (b : Byte) : (s.absorbPair b).crcPar = !s.crcPar := rfl
@[simp] theorem State.absorbPair_crcHold (s : State) (b : Byte) : (s.absorbPair b).crcHold = if s.crcPar then s.crcHold else b := rfl
@[simp] theorem State.absorbPair_crcB1 (s : State) (b : Byte) : (s.absorbPair b).crcB1 = s.crcB1 := rfl
@[simp] theorem State.absorbPair_ackAccept (s : State) (b : Byte) : (s.absorbPair b).ackAccept = s.ackAccept := rfl
@[simp] theorem State.absorbPair_pendingBreak (s : State) (b : Byte) : (s.absorbPair b).pendingBreak = s.pendingBreak := rfl
@[simp] theorem State.absorbPair_pbStart (s : State) (b : Byte) : (s.absorbPair b).pbStart = s.pbStart := rfl
@[simp] theorem State.absorbPair_pbEnd (s : State) (b : Byte) : (s.absorbPair b).pbEnd = s.pbEnd := rfl
@[simp] theorem State.absorbPair_pbBits (s : State) (b : Byte) : (s.absorbPair b).pbBits = s.pbBits := rfl
@[simp] theorem State.absorbPair_pbFerr (s : State) (b : Byte) : (s.absorbPair b).pbFerr = s.pbFerr := rfl
@[simp] theorem State.absorbPair_lastEnd (s : State) (b : Byte) : (s.absorbPair b).lastEnd = s.lastEnd := rfl
@[simp] theorem State.absorbPair_brkBits (s : State) (b : Byte) : (s.absorbPair b).brkBits = s.brkBits := rfl
@[simp] theorem State.absorbPair_version (s : State) (b : Byte) : (s.absorbPair b).version = s.version := rfl
@[simp] theorem State.absorbPair_spb (s : State) (b : Byte) : (s.absorbPair b).spb = s.spb := rfl
@[simp] theorem State.absorbPair_ackEn (s : State) (b : Byte) : (s.absorbPair b).ackEn = s.ackEn := rfl
@[simp] theorem State.absorbPair_ackValue (s : State) (b : Byte) : (s.absorbPair b).ackValue = s.ackValue := rfl
@[simp] theorem State.absorbPair_nodeAck (s : State) (b : Byte) : (s.absorbPair b).nodeAck = s.nodeAck := rfl
@[simp] theorem State.absorbPair_cancel (s : State) (b : Byte) : (s.absorbPair b).cancel = s.cancel := rfl
@[simp] theorem State.absorbPair_mode (s : State) (b : Byte) : (s.absorbPair b).mode = s.mode := rfl
@[simp] theorem State.absorbPair_doneCause (s : State) (b : Byte) : (s.absorbPair b).doneCause = s.doneCause := rfl
@[simp] theorem State.absorbPair_samples (s : State) (b : Byte) : (s.absorbPair b).samples = s.samples := rfl
@[simp] theorem State.absorbPair_streamEnded (s : State) (b : Byte) : (s.absorbPair b).streamEnded = s.streamEnded := rfl
@[simp] theorem State.absorbPair_sink (s : State) (b : Byte) : (s.absorbPair b).sink = s.sink := rfl
@[simp] theorem State.absorbPair_inbox (s : State) (b : Byte) : (s.absorbPair b).inbox = s.inbox := rfl
@[simp] theorem State.absorbPair_waiting (s : State) (b : Byte) : (s.absorbPair b).waiting = s.waiting := rfl
@[simp] theorem State.absorbPair_result (s : State) (b : Byte) : (s.absorbPair b).result = s.result := rfl
@[simp] theorem State.absorbPair_freeIndex (s : State) (b : Byte) : (s.absorbPair b).freeIndex = s.freeIndex := rfl

@[simp] theorem State.beginSession_config (s : State) : s.beginSession.config = s.config := rfl
@[simp] theorem State.beginSession_protocol (s : State) : s.beginSession.protocol = s.protocol := rfl
@[simp] theorem State.beginSession_state (s : State) : s.beginSession.state = .noFrame := rfl
@[simp] theorem State.beginSession_pos (s : State) : s.beginSession.pos = 0 := rfl
@[simp] theorem State.beginSession_id1 (s : State) : s.beginSession.id1 = 0 := rfl
@[simp] theorem State.beginSession_id2 (s : State) : s.beginSession.id2 = 0 := rfl
@[simp] theorem State.beginSession_bodyLen (s : State) : s.beginSession.bodyLen = 0 := rfl
@[simp] theorem State.beginSession_remaining (s : State) : s.beginSession.remaining = 0 := rfl
@[simp] theorem State.beginSession_crc (s : State) : s.beginSession.crc = s.config.crcInit := rfl
@[simp] theorem State.beginSession_crcPar (s : State) : s.beginSession.crcPar = false := rfl
@[simp] theorem State.beginSession_crcHold (s : State) : s.beginSession.crcHold = 0 := rfl
@[simp] theorem State.beginSession_crcB1 (s : State) : s.beginSession.crcB1 = 0 := rfl
@[simp] theorem State.beginSession_ackAccept (s : State) : s.beginSession.ackAccept = 0 := rfl
@[simp] theorem State.beginSession_pendingBreak (s : State) : s.beginSession.pendingBreak = false := rfl
@[simp] theorem State.beginSession_pbStart (s : State) : s.beginSession.pbStart = s.pbStart := rfl
@[simp] theorem State.beginSession_pbEnd (s : State) : s.beginSession.pbEnd = s.pbEnd := rfl
@[simp] theorem State.beginSession_pbBits (s : State) : s.beginSession.pbBits = s.pbBits := rfl
@[simp] theorem State.beginSession_pbFerr (s : State) : s.beginSession.pbFerr = s.pbFerr := rfl
@[simp] theorem State.beginSession_lastEnd (s : State) : s.beginSession.lastEnd = 0 := rfl
@[simp] theorem State.beginSession_brkBits (s : State) : s.beginSession.brkBits = 0 := rfl
@[simp] theorem State.beginSession_version (s : State) : s.beginSession.version = s.version := rfl
@[simp] theorem State.beginSession_spb (s : State) : s.beginSession.spb = s.spb := rfl
@[simp] theorem State.beginSession_ackEn (s : State) : s.beginSession.ackEn = s.ackEn := rfl
@[simp] theorem State.beginSession_ackValue (s : State) : s.beginSession.ackValue = s.ackValue := rfl
@[simp] theorem State.beginSession_nodeAck (s : State) : s.beginSession.nodeAck = s.nodeAck := rfl
@[simp] theorem State.beginSession_cancel (s : State) : s.beginSession.cancel = s.cancel := rfl
@[simp] theorem State.beginSession_mode (s : State) : s.beginSession.mode = .run := rfl
@[simp] theorem State.beginSession_doneCause (s : State) : s.beginSession.doneCause = s.doneCause := rfl
@[simp] theorem State.beginSession_samples (s : State) : s.beginSession.samples = s.samples := rfl
@[simp] theorem State.beginSession_streamEnded (s : State) : s.beginSession.streamEnded = s.streamEnded := rfl
@[simp] theorem State.beginSession_sink (s : State) : s.beginSession.sink = s.sink := rfl
@[simp] theorem State.beginSession_inbox (s : State) : s.beginSession.inbox = s.inbox := rfl
@[simp] theorem State.beginSession_waiting (s : State) : s.beginSession.waiting = false := rfl
@[simp] theorem State.beginSession_result (s : State) : s.beginSession.result = s.result := rfl
@[simp] theorem State.beginSession_freeIndex (s : State) : s.beginSession.freeIndex = s.freeIndex := rfl

/-! `absorb` picks one of the two arms by the pairing choice; no field but the CRC state is touched. -/

@[simp] theorem State.absorb_config (s : State) (v : Version) (b : Byte) : (s.absorb v b).config = s.config := by
  unfold State.absorb; split <;> rfl
@[simp] theorem State.absorb_protocol (s : State) (v : Version) (b : Byte) : (s.absorb v b).protocol = s.protocol := by
  unfold State.absorb; split <;> rfl
@[simp] theorem State.absorb_state (s : State) (v : Version) (b : Byte) : (s.absorb v b).state = s.state := by
  unfold State.absorb; split <;> rfl
@[simp] theorem State.absorb_pos (s : State) (v : Version) (b : Byte) : (s.absorb v b).pos = s.pos := by
  unfold State.absorb; split <;> rfl
@[simp] theorem State.absorb_id1 (s : State) (v : Version) (b : Byte) : (s.absorb v b).id1 = s.id1 := by
  unfold State.absorb; split <;> rfl
@[simp] theorem State.absorb_id2 (s : State) (v : Version) (b : Byte) : (s.absorb v b).id2 = s.id2 := by
  unfold State.absorb; split <;> rfl
@[simp] theorem State.absorb_bodyLen (s : State) (v : Version) (b : Byte) : (s.absorb v b).bodyLen = s.bodyLen := by
  unfold State.absorb; split <;> rfl
@[simp] theorem State.absorb_remaining (s : State) (v : Version) (b : Byte) : (s.absorb v b).remaining = s.remaining := by
  unfold State.absorb; split <;> rfl
@[simp] theorem State.absorb_crcB1 (s : State) (v : Version) (b : Byte) : (s.absorb v b).crcB1 = s.crcB1 := by
  unfold State.absorb; split <;> rfl
@[simp] theorem State.absorb_ackAccept (s : State) (v : Version) (b : Byte) : (s.absorb v b).ackAccept = s.ackAccept := by
  unfold State.absorb; split <;> rfl
@[simp] theorem State.absorb_pendingBreak (s : State) (v : Version) (b : Byte) : (s.absorb v b).pendingBreak = s.pendingBreak := by
  unfold State.absorb; split <;> rfl
@[simp] theorem State.absorb_pbStart (s : State) (v : Version) (b : Byte) : (s.absorb v b).pbStart = s.pbStart := by
  unfold State.absorb; split <;> rfl
@[simp] theorem State.absorb_pbEnd (s : State) (v : Version) (b : Byte) : (s.absorb v b).pbEnd = s.pbEnd := by
  unfold State.absorb; split <;> rfl
@[simp] theorem State.absorb_pbBits (s : State) (v : Version) (b : Byte) : (s.absorb v b).pbBits = s.pbBits := by
  unfold State.absorb; split <;> rfl
@[simp] theorem State.absorb_pbFerr (s : State) (v : Version) (b : Byte) : (s.absorb v b).pbFerr = s.pbFerr := by
  unfold State.absorb; split <;> rfl
@[simp] theorem State.absorb_lastEnd (s : State) (v : Version) (b : Byte) : (s.absorb v b).lastEnd = s.lastEnd := by
  unfold State.absorb; split <;> rfl
@[simp] theorem State.absorb_brkBits (s : State) (v : Version) (b : Byte) : (s.absorb v b).brkBits = s.brkBits := by
  unfold State.absorb; split <;> rfl
@[simp] theorem State.absorb_version (s : State) (v : Version) (b : Byte) : (s.absorb v b).version = s.version := by
  unfold State.absorb; split <;> rfl
@[simp] theorem State.absorb_spb (s : State) (v : Version) (b : Byte) : (s.absorb v b).spb = s.spb := by
  unfold State.absorb; split <;> rfl
@[simp] theorem State.absorb_ackEn (s : State) (v : Version) (b : Byte) : (s.absorb v b).ackEn = s.ackEn := by
  unfold State.absorb; split <;> rfl
@[simp] theorem State.absorb_ackValue (s : State) (v : Version) (b : Byte) : (s.absorb v b).ackValue = s.ackValue := by
  unfold State.absorb; split <;> rfl
@[simp] theorem State.absorb_nodeAck (s : State) (v : Version) (b : Byte) : (s.absorb v b).nodeAck = s.nodeAck := by
  unfold State.absorb; split <;> rfl
@[simp] theorem State.absorb_cancel (s : State) (v : Version) (b : Byte) : (s.absorb v b).cancel = s.cancel := by
  unfold State.absorb; split <;> rfl
@[simp] theorem State.absorb_mode (s : State) (v : Version) (b : Byte) : (s.absorb v b).mode = s.mode := by
  unfold State.absorb; split <;> rfl
@[simp] theorem State.absorb_doneCause (s : State) (v : Version) (b : Byte) : (s.absorb v b).doneCause = s.doneCause := by
  unfold State.absorb; split <;> rfl
@[simp] theorem State.absorb_samples (s : State) (v : Version) (b : Byte) : (s.absorb v b).samples = s.samples := by
  unfold State.absorb; split <;> rfl
@[simp] theorem State.absorb_streamEnded (s : State) (v : Version) (b : Byte) : (s.absorb v b).streamEnded = s.streamEnded := by
  unfold State.absorb; split <;> rfl
@[simp] theorem State.absorb_sink (s : State) (v : Version) (b : Byte) : (s.absorb v b).sink = s.sink := by
  unfold State.absorb; split <;> rfl
@[simp] theorem State.absorb_inbox (s : State) (v : Version) (b : Byte) : (s.absorb v b).inbox = s.inbox := by
  unfold State.absorb; split <;> rfl
@[simp] theorem State.absorb_waiting (s : State) (v : Version) (b : Byte) : (s.absorb v b).waiting = s.waiting := by
  unfold State.absorb; split <;> rfl
@[simp] theorem State.absorb_result (s : State) (v : Version) (b : Byte) : (s.absorb v b).result = s.result := by
  unfold State.absorb; split <;> rfl
@[simp] theorem State.absorb_freeIndex (s : State) (v : Version) (b : Byte) : (s.absorb v b).freeIndex = s.freeIndex := by
  unfold State.absorb; split <;> rfl

@[simp] theorem State.absorb_crc (s : State) (v : Version) (b : Byte) : (s.absorb v b).crc =
    if s.config.crcPairs.get v then (s.absorbPair b).crc else crcAdd s.config s.crc b := by
  unfold State.absorb; split <;> rfl
@[simp] theorem State.absorb_crcPar (s : State) (v : Version) (b : Byte) : (s.absorb v b).crcPar =
    if s.config.crcPairs.get v then !s.crcPar else s.crcPar := by
  unfold State.absorb; split <;> rfl
@[simp] theorem State.absorb_crcHold (s : State) (v : Version) (b : Byte) : (s.absorb v b).crcHold =
    if s.config.crcPairs.get v then (s.absorbPair b).crcHold else s.crcHold := by
  unfold State.absorb; split <;> rfl

theorem State.absorb_of_pairs {s : State} {v : Version} (h : s.config.crcPairs.get v = true) (b : Byte) :
    s.absorb v b = s.absorbPair b := if_pos h

theorem State.absorb_of_no_pairs {s : State} {v : Version} (h : s.config.crcPairs.get v = false) (b : Byte) :
    s.absorb v b = s.absorbByte b := if_neg (by simp [h])

end Sys2Proof.Machine
end

