-- ==== Sys2Proof/Laws/Outcome.lean ====
section
/-! SUPPORT. What the operations that read the configuration or run a wire operation can answer; and the codes
of versions and states. -/

namespace Sys2Proof

@[simp] theorem FrameState.ofCode_code (st : FrameState) : FrameState.ofCode st.code = some st := by
  cases st <;> rfl

/-- A code that names a version is that version's code. -/
theorem Version.code_of_ofCode {p : Config} {w : BitVec 2} {v : Version} (h : Version.ofCode p w = some v) :
    w = p.versionCode.get v := by
  unfold Version.ofCode at h
  split at h
  · cases h; assumption
  · split at h
    · cases h; assumption
    · split at h
      · cases h; assumption
      · cases h

/-- Under distinct codes each version's code names it. -/
theorem Version.ofCode_code {p : Config} (hp : p.codesDistinct) (v : Version) :
    Version.ofCode p (p.versionCode.get v) = some v := by
  obtain ⟨h1, h2, h3⟩ := hp
  cases v <;> simp [Version.ofCode, PerVersion.get, h1.symm, h2.symm, h3.symm]

/-- At the parameter values of 00 R5 the reserved code is 3. -/
theorem Version.ofCode_cfg_eq_none {w : BitVec 2} : Version.ofCode Machine.cfg w = none ↔ w = 3 := by
  revert w; decide

theorem FrameState.code_of_ofCode {w : BitVec 4} {st : FrameState} (h : FrameState.ofCode w = some st) :
    w = st.code := by
  revert w; cases st <;> decide

namespace Machine

theorem withVersion_of_protocol {s : State} {v : Version} (h : s.protocol = some v) (k : Version → Outcome) :
    s.withVersion k = k v := by
  simp [State.withVersion, h]

theorem withVersion_reserved {s : State} (h : s.protocol = none) (k : Version → Outcome) :
    s.withVersion k = .refused .reservedVersion := by
  simp [State.withVersion, h]

/-- The version in force depends on the parameters and the register only. -/
theorem State.protocol_congr {s t : State} (hc : t.config = s.config) (hv : t.version = s.version) :
    t.protocol = s.protocol := by rw [State.protocol, State.protocol, hc, hv]

theorem withVersion_next {s t : State} {k : Version → Outcome} (h : s.withVersion k = .next t) :
    ∃ v : Version, s.protocol = some v ∧ k v = .next t := by
  unfold State.withVersion at h
  split at h
  · exact ⟨_, ‹_›, h⟩
  · cases h

theorem withTiming_of_legal {s : State} {v : Version} (h : s.protocol = some v) (hs : 2 ≤ s.spb)
    (k : Version → Nat → Outcome) : s.withTiming k = k v s.spb := by
  simp [State.withTiming, withVersion_of_protocol h, hs]

theorem withTiming_next {s t : State} {k : Version → Nat → Outcome} (h : s.withTiming k = .next t) :
    ∃ v : Version, s.protocol = some v ∧ 2 ≤ s.spb ∧ k v s.spb = .next t := by
  obtain ⟨v, hv, h⟩ := withVersion_next h
  split at h
  · exact ⟨v, hv, ‹_›, h⟩
  · cases h

/-- A step with a wire operation completes the operation, or starves. -/
theorem onWire_next {α : Type} {s t : State} {w : Wire α} {k : α → State → Outcome}
    (h : s.onWire w k = .next t) :
    (∃ a c, w = .done a c ∧ k a (s.atCursor c) = .next t) ∨ (∃ c, w = .exhausted c ∧ t = s.starve c) := by
  cases w with
  | done a c => exact .inl ⟨a, c, rfl, h⟩
  | exhausted c => exact .inr ⟨c, rfl, by simpa [State.onWire] using h.symm⟩

@[simp] theorem onWire_done {α : Type} (s : State) (a : α) (c : Cursor) (k : α → State → Outcome) :
    s.onWire (.done a c) k = k a (s.atCursor c) := rfl

@[simp] theorem onWire_exhausted {α : Type} (s : State) (c : Cursor) (k : α → State → Outcome) :
    s.onWire (.exhausted c) k = .next (s.starve c) := rfl

/-- A starved step ends the session of a stream that has ended, and otherwise waits. -/
theorem starve_cases (s : State) (c : Cursor) :
    (s.streamEnded = true ∧ s.starve c = (s.exhaustedAt c).terminate .exhausted) ∨
      (s.streamEnded = false ∧ s.starve c = { s with waiting := true }) := by
  cases h : s.streamEnded <;> simp [State.starve, h]

/-- A state that consumes a break answers for a pending break, a scanned one, or a starved scan. -/
theorem withBreak_next {s t : State} {k : BreakRec → State → Outcome} (h : s.withBreak k = .next t) :
    (s.pendingBreak = true ∧ k s.pendingRec s.clearPending = .next t) ∨
      (s.pendingBreak = false ∧ ∃ v : Version, s.protocol = some v ∧ 2 ≤ s.spb ∧
        ((∃ u c, brkScan s.config s.samples s.spb v s.cursor = .done u c ∧ k u (s.atCursor c) = .next t) ∨
          (∃ c, brkScan s.config s.samples s.spb v s.cursor = .exhausted c ∧ t = s.starve c))) := by
  unfold State.withBreak at h
  cases hp : s.pendingBreak with
  | true => exact .inl ⟨rfl, by simpa [hp] using h⟩
  | false =>
    obtain ⟨v, hv, hs, h⟩ := withTiming_next (by simpa [hp] using h)
    exact .inr ⟨rfl, v, hv, hs, onWire_next h⟩

/-- A state that consumes a byte answers for a byte, a break field, or a starved read. -/
theorem withByte_next {s t : State} {k : ByteRec → State → Outcome} (h : s.withByte k = .next t) :
    ∃ v : Version, s.protocol = some v ∧ 2 ≤ s.spb ∧
      ((∃ r c, byteRead s.config s.samples s.spb v s.cursor = .done (.byte r) c ∧
          k r (s.atCursor c) = .next t) ∨
        (∃ f c, byteRead s.config s.samples s.spb v s.cursor = .done (.breakField f) c ∧
          t = (s.atCursor c).enterMissingByte f) ∨
        (∃ c, byteRead s.config s.samples s.spb v s.cursor = .exhausted c ∧ t = s.starve c)) := by
  obtain ⟨v, hv, hs, h⟩ := withTiming_next h
  refine ⟨v, hv, hs, ?_⟩
  rcases onWire_next h with ⟨a, c, hw, h⟩ | ⟨c, hw, h⟩
  · cases a with
    | byte r => exact .inl ⟨r, c, hw, h⟩
    | breakField f => exact .inr (.inl ⟨f, c, hw, by simpa [onRead, execMissingByte] using h.symm⟩)
  · exact .inr (.inr ⟨c, hw, h⟩)

/-- What ITER can answer: no step, the cancellation, or the unit step. -/
theorem execIter_next {s t : State} (h : execIter s = .next t) :
    (s.mode ≠ .run ∧ t = s) ∨
      (s.mode = .run ∧ s.cancel = true ∧ s.waiting = false ∧ t = s.terminate .cancelled) ∨
      (s.mode = .run ∧ (s.cancel = false ∨ s.waiting = true) ∧ unitStep s = .next t) := by
  unfold execIter at h
  cases hm : s.mode with
  | idle => rw [hm] at h; exact .inl ⟨by simp, by simpa using h.symm⟩
  | done => rw [hm] at h; exact .inl ⟨by simp, by simpa using h.symm⟩
  | run =>
    rw [hm] at h
    refine .inr ?_
    by_cases hc : s.cancel = true ∧ s.waiting = false
    · exact .inl ⟨rfl, hc.1, hc.2, by simpa [hc, execSessionCancel] using h.symm⟩
    · refine .inr ⟨rfl, ?_, ?_⟩
      · cases h1 : s.cancel <;> cases h2 : s.waiting <;> simp_all
      · cases h1 : s.cancel <;> cases h2 : s.waiting <;> simp_all

/-- What a step can be: the framer's own step, an operation the host asks for, or another action of the
environment. -/
theorem step_next {s t : State} (h : step s = .next t) :
    (s.inbox = [] ∧ execIter s = .next t) ∨
      (∃ rest, s.inbox = .turn :: rest ∧ execIter { s with inbox := rest } = .next t) ∨
      (∃ rest, s.inbox = .start :: rest ∧ execSessionStart { s with inbox := rest } = .next t) ∨
      (∃ r rest, s.inbox = r :: rest ∧ r.operation = none ∧ t = hostAct r { s with inbox := rest }) := by
  unfold step at h
  split at h
  · exact .inl ⟨‹_›, h⟩
  · rename_i r rest hr
    cases r <;> first
      | exact .inr (.inl ⟨rest, hr, h⟩)
      | exact .inr (.inr (.inl ⟨rest, hr, h⟩))
      | exact .inr (.inr (.inr ⟨_, rest, hr, rfl, by simpa [HostReq.operation] using h.symm⟩))

end Machine

end Sys2Proof
end

