-- ==== Sys2Proof/Laws/Encoding.lean ====
section
/-! SUPPORT. The parts of the words the encoder writes, and what the masks of the table leave of them. -/

namespace Sys2Proof

/-! The parts of a header word (30 R76). -/

/-- The bits of a header word. -/
theorem headerWord_getLsbD (v : BitVec 2) (a b : Byte) (i : Nat) :
    (headerWord v a b).getLsbD i =
      if i < 8 then b.getLsbD i else if i < 16 then a.getLsbD (i - 8) else v.getLsbD (i - 16) := by
  have h1 := BitVec.getLsbD_append (x := v ++ a) (y := b) (i := i)
  have h2 := BitVec.getLsbD_append (x := v) (y := a) (i := i - 8)
  have h : (headerWord v a b).getLsbD i = _ := h1
  rw [h, h2]
  by_cases h8 : i < 8
  · simp [h8]
  · by_cases h16 : i < 16
    · have : i - 8 < 8 := by omega
      simp [h8, h16, this]
    · have : ¬ (i - 8 < 8) := by omega
      simp [h8, h16, this, Nat.sub_sub]

@[simp] theorem headerWord_version (v : BitVec 2) (a b : Byte) : (headerWord v a b).extractLsb' 16 2 = v := by
  apply BitVec.eq_of_getLsbD_eq
  intro i hi
  have h1 : ¬ 16 + i < 8 := by omega
  simp [headerWord_getLsbD, hi, h1]

@[simp] theorem headerWord_id1 (v : BitVec 2) (a b : Byte) : (headerWord v a b).extractLsb' 8 8 = a := by
  apply BitVec.eq_of_getLsbD_eq
  intro i hi
  have h2 : 8 + i < 16 := by omega
  simp [headerWord_getLsbD, hi, h2]

@[simp] theorem headerWord_id2 (v : BitVec 2) (a b : Byte) : (headerWord v a b).extractLsb' 0 8 = b := by
  apply BitVec.eq_of_getLsbD_eq
  intro i hi
  simp [headerWord_getLsbD, hi]

/-- A header word is its parts. -/
theorem headerWord_of_parts (h : BitVec 18) :
    headerWord (h.extractLsb' 16 2) (h.extractLsb' 8 8) (h.extractLsb' 0 8) = h := by
  apply BitVec.eq_of_getLsbD_eq
  intro i hi
  rw [headerWord_getLsbD]
  split
  · rename_i h8; simp [h8]
  · split
    · rename_i h8 h16
      have : i - 8 < 8 := by omega
      simp [this, show 8 + (i - 8) = i by omega]
    · have : i - 16 < 2 := by omega
      simp [this, show 16 + (i - 16) = i by omega]

/-! Masks. -/

/-- A mask acts on each part of a header word by itself. -/
theorem headerWord_and (v v' : BitVec 2) (a a' b b' : Byte) :
    headerWord v a b &&& headerWord v' a' b' = headerWord (v &&& v') (a &&& a') (b &&& b') := by
  apply BitVec.eq_of_getLsbD_eq
  intro i _
  simp only [BitVec.getLsbD_and, headerWord_getLsbD]
  split
  · rfl
  · split <;> rfl

/-- A masked word as a number. -/
theorem and_toNat {n : Nat} {h m w : BitVec n} (hm : h &&& m = w) : h.toNat &&& m.toNat = w.toNat := by
  rw [← hm, BitVec.toNat_and]

/-- Version V2 at the parameter values of 00 R5. -/
theorem Version.eq_of_v2 {w : BitVec 2} (h : (Version.ofCode Machine.cfg w == some .v2) = true) : w = 2 := by
  revert w; decide

/-- The mask of the V2 LEN rows leaves the version code, function-select and the length code. -/
theorem rowV2_masked {f : Bool} {c : BitVec 3} {w : BitVec 2} {id1 id2 : Byte}
    (h : isRowV2 Machine.cfg f c w id1 id2 = true) :
    headerWord w id1 id2 &&& headerWord 3 0 0x1E = headerWord 2 0 (0#3 ++ BitVec.ofBool f ++ c ++ 0#1) := by
  simp only [isRowV2, Bool.and_eq_true, beq_iff_eq] at h
  obtain ⟨⟨h1, h2⟩, h3⟩ := h
  change id2.getLsbD 4 = f at h2
  have hw : w = 2 := Version.eq_of_v2 (by simp [h1])
  have hb : id2 &&& 0x1E = 0#3 ++ BitVec.ofBool f ++ c ++ 0#1 := by
    subst h2 h3
    clear h1 hw
    revert id2
    decide
  rw [headerWord_and, hw, hb]
  simp

/-- The mask of the V1 and V1Extended LEN rows leaves the version code and function-select. -/
theorem rowV1_masked {f : Bool} {w : BitVec 2} {id1 id2 : Byte} (h : id1.getLsbD 0 = f) :
    headerWord w id1 id2 &&& headerWord 3 1 0 = headerWord w (0#7 ++ BitVec.ofBool f) 0 := by
  have ha : id1 &&& 1 = 0#7 ++ BitVec.ofBool f := by
    subst h
    revert id1
    decide
  have hv : w &&& 3 = w := by revert w; decide
  rw [headerWord_and, ha, hv]
  simp

/-- The mask of the INSTR.V2 row leaves the version code and the instruction bit. -/
theorem instrV2_masked {id1 id2 : Byte} (h : id2.getLsbD 0 = true) :
    headerWord 2 id1 id2 &&& headerWord 3 0 1 = headerWord 2 0 1 := by
  have hb : id2 &&& 1 = 1 := by
    revert id2
    decide
  rw [headerWord_and, hb]
  simp

end Sys2Proof
end

