-- ==== Sys2Proof/Laws/Memory.lean ====
section
/-! SUPPORT. The NODE_ACK table keeps its canonical form, and reads what was written. -/

namespace Sys2Proof.Machine

/-- Above a lower bound an address below it reads as the default. -/
theorem Memory.read_below {size : Nat} {m : List Host.Cell} {lo a : Nat} (h : Memory.wfAbove size m lo = true) (ha : a < lo) :
    Memory.read m a = nodeDefault := by
  induction m generalizing lo with
  | nil => rfl
  | cons c m ih =>
    obtain ⟨k, v⟩ := c
    simp only [Memory.wfAbove, Bool.and_eq_true, decide_eq_true_eq] at h
    have hk : k ≠ a := by omega
    simp only [Memory.read, hk, if_false]
    exact ih h.2 (by omega)

theorem Memory.wfAbove_mono {size : Nat} {m : List Host.Cell} {lo lo' : Nat} (h : Memory.wfAbove size m lo = true)
    (hl : lo' ≤ lo) : Memory.wfAbove size m lo' = true := by
  cases m with
  | nil => rfl
  | cons c m =>
    obtain ⟨k, v⟩ := c
    simp only [Memory.wfAbove, Bool.and_eq_true, decide_eq_true_eq] at h ⊢
    exact ⟨⟨⟨⟨by omega, h.1.1.1.2⟩, h.1.1.2⟩, h.1.2⟩, h.2⟩

/-- A write keeps the canonical form above every lower bound that the address meets. -/
theorem Memory.write_wfAbove {size : Nat} {m : List Host.Cell} {lo a : Nat} {b : Byte} (h : Memory.wfAbove size m lo = true)
    (hl : lo ≤ a) (ha : a < size) (hb : b.toNat < 4) : Memory.wfAbove size (Memory.write m a b) lo = true := by
  induction m generalizing lo with
  | nil => by_cases hd : b = nodeDefault <;> simp [Memory.write, Memory.wfAbove, hd, hl, ha, hb]
  | cons c m ih =>
    obtain ⟨k, v⟩ := c
    simp only [Memory.wfAbove, Bool.and_eq_true, decide_eq_true_eq, bne_iff_ne, ne_eq] at h
    obtain ⟨⟨⟨⟨h1, h2⟩, h3⟩, h4⟩, h5⟩ := h
    simp only [Memory.write]
    split
    · simp [Memory.wfAbove, h1, h2, h3, h4, ih h5 (by omega)]
    · split
      · subst k
        split
        · exact Memory.wfAbove_mono h5 (by omega)
        · simp [Memory.wfAbove, *]
      · split <;> simp [Memory.wfAbove, *]; omega

theorem NodeEntry.toByte_lt (e : NodeEntry) : e.toByte.toNat < 4 := by
  obtain ⟨p, q⟩ := e; cases p <;> cases q <;> decide

@[simp] theorem NodeEntry.ofByte_toByte (e : NodeEntry) : NodeEntry.ofByte e.toByte = e := by
  obtain ⟨p, q⟩ := e; cases p <;> cases q <;> rfl

/-- A write that takes effect in IDLE only leaves what it writes, or everything as it was. -/
theorem State.whileIdle_cases (s w : State) : s.whileIdle w = w ∨ s.whileIdle w = s := by
  unfold State.whileIdle
  split
  · exact .inl rfl
  · exact .inr rfl
  · exact .inr rfl

/-- Every host action keeps the table's canonical form. -/
theorem hostAct_wf (r : HostReq) {s : State} (h : Memory.wf s.config.nodeAckSize s.nodeAck = true) :
    Memory.wf (hostAct r s).config.nodeAckSize (hostAct r s).nodeAck = true := by
  have idle {w : State} (hw : Memory.wf w.config.nodeAckSize w.nodeAck = true) :
      Memory.wf (s.whileIdle w).config.nodeAckSize (s.whileIdle w).nodeAck = true := by
    rcases s.whileIdle_cases w with e | e <;> rw [e] <;> assumption
  cases r with
  | writeNodeAck a e =>
    simp only [hostAct]
    split
    · exact idle (Memory.write_wfAbove h (Nat.zero_le _) ‹_› e.toByte_lt)
    · exact h
  | writeVersion v => exact idle h
  | writeSpb n => exact idle h
  | writeAckEn b => exact idle h
  | writeAckValue b => exact idle h
  | load samples ended => exact idle h
  | reset => rfl
  | deliver more => simp only [hostAct]; split <;> exact h
  | turn => exact h
  | start => exact h
  | cancel => exact h
  | read reg => exact h
  | endStream => exact h

theorem reset_wf (p : Config) :
    Memory.wf (State.resetWith p).config.nodeAckSize (State.resetWith p).nodeAck = true := rfl

end Sys2Proof.Machine
end

