-- ==== Sys2Proof/Laws/PerInstr.lean ====
section
/-! SUPPORT. Statements made once for each operation: the word the encoder writes matches the operation's row of
spec/opcode_table.json. -/

namespace Sys2Proof.Laws.EncodingMatchesRow

/-- The word of a well-formed operation's encoding matches the match and mask columns of its row, at the
parameter values of 00 R5, for which the columns are written (30 R76). -/
def Statement (i : Instr) : Prop :=
  ∀ sel row, i.wellFormed Machine.cfg = true → encode Machine.cfg i = some sel → i.tableRow = some row →
    row.matchesWord sel.word = true

/-- A row with no encoding. -/
theorem of_none {i : Instr} (h : encode Machine.cfg i = none) : Statement i := by
  intro sel row _ hs; rw [h] at hs; cases hs

/-- A row with no match and mask. -/
theorem of_no_row {i : Instr} (h : i.tableRow = none) : Statement i := by
  intro sel row _ _ hr; rw [h] at hr; cases hr

/-- A row whose word and columns are known. -/
theorem of_word {i : Instr} {sel : Selector} {p m : Nat} (hs : encode Machine.cfg i = some sel)
    (hr : i.tableRow = some ⟨p, m⟩) (h : i.wellFormed Machine.cfg = true → sel.word &&& m = p) :
    Statement i := by
  intro sel' row hw hs' hr'
  rw [hs] at hs'; rw [hr] at hr'
  cases hs'; cases hr'
  simpa [TableRow.matchesWord] using h hw

/-- A STATE row: the word is the row's pattern. -/
theorem of_state {i : Instr} {w : BitVec 4} {u : WireUnit} (hs : encode Machine.cfg i = some (.state w u))
    (hr : i.tableRow = some ⟨w.toNat, 0xF⟩) : Statement i := by
  refine of_word hs hr fun _ => ?_
  change w.toNat &&& 0xF = w.toNat
  clear hs hr; revert w; decide

theorem iter : Statement (.iter) :=
  of_none rfl

theorem brkScan : Statement (.brkScan) :=
  of_none rfl

theorem byteRead : Statement (.byteRead) :=
  of_no_row rfl

theorem stNoframe (u : BreakRec) : Statement (.stNoframe u) :=
  of_state rfl rfl

theorem stHeaderbreak (u : BreakRec) : Statement (.stHeaderbreak u) :=
  of_state rfl rfl

theorem stHeaderid1 (r : ByteRec) : Statement (.stHeaderid1 r) :=
  of_state rfl rfl

theorem stHeaderid2 (r : ByteRec) : Statement (.stHeaderid2 r) :=
  of_state rfl rfl

theorem stInstr1 (r : ByteRec) : Statement (.stInstr1 r) :=
  of_state rfl rfl

theorem stInstr2 (r : ByteRec) : Statement (.stInstr2 r) :=
  of_state rfl rfl

theorem stData (r : ByteRec) : Statement (.stData r) :=
  of_state rfl rfl

theorem stCrc1 (r : ByteRec) : Statement (.stCrc1 r) :=
  of_state rfl rfl

theorem stCrc2 (r : ByteRec) : Statement (.stCrc2 r) :=
  of_state rfl rfl

theorem stAck (r : ByteRec) : Statement (.stAck r) :=
  of_state rfl rfl

theorem missingByte (r : BreakFieldRec) : Statement (.missingByte r) :=
  of_none rfl

theorem sessionStart : Statement (.sessionStart) :=
  of_none rfl

theorem sessionCancel : Statement (.sessionCancel) :=
  of_none rfl

theorem sessionExhaust : Statement (.sessionExhaust) :=
  of_none rfl

theorem len (version : BitVec 2) (id1 id2 : Byte) : Statement (.len version id1 id2) :=
  of_none rfl

theorem lenV2F0C0 (version : BitVec 2) (id1 id2 : Byte) : Statement (.lenV2F0C0 version id1 id2) :=
  of_word rfl rfl fun h => and_toNat (rowV2_masked h)

theorem lenV2F0C1 (version : BitVec 2) (id1 id2 : Byte) : Statement (.lenV2F0C1 version id1 id2) :=
  of_word rfl rfl fun h => and_toNat (rowV2_masked h)

theorem lenV2F0C2 (version : BitVec 2) (id1 id2 : Byte) : Statement (.lenV2F0C2 version id1 id2) :=
  of_word rfl rfl fun h => and_toNat (rowV2_masked h)

theorem lenV2F0C3 (version : BitVec 2) (id1 id2 : Byte) : Statement (.lenV2F0C3 version id1 id2) :=
  of_word rfl rfl fun h => and_toNat (rowV2_masked h)

theorem lenV2F0C4 (version : BitVec 2) (id1 id2 : Byte) : Statement (.lenV2F0C4 version id1 id2) :=
  of_word rfl rfl fun h => and_toNat (rowV2_masked h)

theorem lenV2F0C5 (version : BitVec 2) (id1 id2 : Byte) : Statement (.lenV2F0C5 version id1 id2) :=
  of_word rfl rfl fun h => and_toNat (rowV2_masked h)

theorem lenV2F0C6 (version : BitVec 2) (id1 id2 : Byte) : Statement (.lenV2F0C6 version id1 id2) :=
  of_word rfl rfl fun h => and_toNat (rowV2_masked h)

theorem lenV2F0C7 (version : BitVec 2) (id1 id2 : Byte) : Statement (.lenV2F0C7 version id1 id2) :=
  of_word rfl rfl fun h => and_toNat (rowV2_masked h)

theorem lenV2F1C0 (version : BitVec 2) (id1 id2 : Byte) : Statement (.lenV2F1C0 version id1 id2) :=
  of_word rfl rfl fun h => and_toNat (rowV2_masked h)

theorem lenV2F1C1 (version : BitVec 2) (id1 id2 : Byte) : Statement (.lenV2F1C1 version id1 id2) :=
  of_word rfl rfl fun h => and_toNat (rowV2_masked h)

theorem lenV2F1C2 (version : BitVec 2) (id1 id2 : Byte) : Statement (.lenV2F1C2 version id1 id2) :=
  of_word rfl rfl fun h => and_toNat (rowV2_masked h)

theorem lenV2F1C3 (version : BitVec 2) (id1 id2 : Byte) : Statement (.lenV2F1C3 version id1 id2) :=
  of_word rfl rfl fun h => and_toNat (rowV2_masked h)

theorem lenV2F1C4 (version : BitVec 2) (id1 id2 : Byte) : Statement (.lenV2F1C4 version id1 id2) :=
  of_word rfl rfl fun h => and_toNat (rowV2_masked h)

theorem lenV2F1C5 (version : BitVec 2) (id1 id2 : Byte) : Statement (.lenV2F1C5 version id1 id2) :=
  of_word rfl rfl fun h => and_toNat (rowV2_masked h)

theorem lenV2F1C6 (version : BitVec 2) (id1 id2 : Byte) : Statement (.lenV2F1C6 version id1 id2) :=
  of_word rfl rfl fun h => and_toNat (rowV2_masked h)

theorem lenV2F1C7 (version : BitVec 2) (id1 id2 : Byte) : Statement (.lenV2F1C7 version id1 id2) :=
  of_word rfl rfl fun h => and_toNat (rowV2_masked h)

theorem lenV1F0 (id1 id2 : Byte) : Statement (.lenV1F0 id1 id2) :=
  of_word rfl rfl fun h => and_toNat (rowV1_masked (eq_of_beq h))

theorem lenV1xF0 (id1 id2 : Byte) : Statement (.lenV1xF0 id1 id2) :=
  of_word rfl rfl fun h => and_toNat (rowV1_masked (eq_of_beq h))

theorem lenV1F1 (id1 id2 : Byte) : Statement (.lenV1F1 id1 id2) :=
  of_word rfl rfl fun h => and_toNat (rowV1_masked (eq_of_beq h))

theorem lenV1xF1 (id1 id2 : Byte) : Statement (.lenV1xF1 id1 id2) :=
  of_word rfl rfl fun h => and_toNat (rowV1_masked (eq_of_beq h))

theorem instrV2 (id1 id2 : Byte) : Statement (.instrV2 id1 id2) :=
  of_word rfl rfl fun h => and_toNat (instrV2_masked h)

theorem crcReset : Statement (.crcReset) :=
  of_none rfl

theorem crcAdd (c : Word) (b : Byte) : Statement (.crcAdd c b) :=
  of_none rfl

theorem crcAbsorbV1 (b : Byte) : Statement (.crcAbsorbV1 b) :=
  of_none rfl

theorem crcAbsorbV2 (b : Byte) : Statement (.crcAbsorbV2 b) :=
  of_none rfl

theorem crcResult : Statement (.crcResult) :=
  of_none rfl

theorem crcRxcheck (b2 : Byte) : Statement (.crcRxcheck b2) :=
  of_none rfl

theorem ackpolV1 (id1 id2 : Byte) : Statement (.ackpolV1 id1 id2) :=
  of_none rfl

theorem ackpolV1x (id1 id2 : Byte) : Statement (.ackpolV1x id1 id2) :=
  of_none rfl

theorem ackpolV2 (id1 id2 : Byte) : Statement (.ackpolV2 id1 id2) :=
  of_none rfl

theorem ackEnabled (node : Byte) : Statement (.ackEnabled node) :=
  of_none rfl

end Sys2Proof.Laws.EncodingMatchesRow
end

