-- ==== Sys2Proof/Laws/Sink.lean ====
section
/-! SUPPORT. What each sink call does to the sink's view, so that no proof unfolds the fold over the calls. -/

namespace Sys2Proof.Machine

/-- One more call. -/
theorem sinkView_append_one (calls : List SinkCall) (c : SinkCall) :
    sinkView (calls ++ [c]) = (sinkView calls).call c := by simp [sinkView]

@[simp] theorem SinkView.call_emitFrame (v : SinkView) (u : FrameUnit) :
    v.call (.emitFrame u) = { v with openPacket := v.openPacket ++ [u] } := rfl

/-- A commit of an empty open packet has no visible effect (20 R52). -/
theorem SinkView.call_commit_empty {v : SinkView} (h : v.openPacket = []) : v.call .commit = v := by
  obtain ⟨o, p, m, k⟩ := v
  cases h
  rfl

/-- A commit makes the open packet visible (20 R52). -/
theorem SinkView.call_commit_of_ne {v : SinkView} (h : v.openPacket ≠ []) :
    v.call .commit = { v with packets := v.packets ++ [v.openPacket], openPacket := [] } := by
  obtain ⟨o, p, m, k⟩ := v
  cases o with
  | nil => exact absurd rfl h
  | cons _ _ => rfl

@[simp] theorem SinkView.call_cancel (v : SinkView) : v.call .cancel = { v with openPacket := [] } := rfl

@[simp] theorem SinkView.call_emitMarker (v : SinkView) (p : Nat) (k : MarkerKind) :
    v.call (.emitMarker p k) = { v with markers := v.markers ++ [(p, k)] } := rfl

@[simp] theorem SinkView.call_emitMissingByte (v : SinkView) (a b : Nat) :
    v.call (.emitMissingByte a b) = { v with missing := v.missing ++ [(a, b)] } := rfl

end Sys2Proof.Machine
end

