-- ==== Sys2Proof/Laws/Wire.lean ====
section
/-! SUPPORT. What a cursor primitive and a wire operation can do: the cursor moves forward, markers and nothing
else are made, and an edge is the least later index whose sample differs. -/

namespace Sys2Proof.Machine

/-! Sequencing. -/

@[simp] theorem Wire.bind_done {α β : Type} (a : α) (c : Cursor) (f : α → Cursor → Wire β) :
    (Wire.done a c).bind f = f a c := rfl

@[simp] theorem Wire.bind_exhausted {α β : Type} (c : Cursor) (f : α → Cursor → Wire β) :
    (Wire.exhausted c : Wire α).bind f = .exhausted c := rfl

theorem Wire.bind_eq_done {α β : Type} {w : Wire α} {f : α → Cursor → Wire β} {b : β} {c : Cursor}
    (h : w.bind f = .done b c) : ∃ a c1, w = .done a c1 ∧ f a c1 = .done b c := by
  cases w with
  | done a c1 => exact ⟨a, c1, rfl, h⟩
  | exhausted c1 => cases h

/-! Edges (20 R44). -/

theorem firstOther_eq_some {b : Sample} {l : List Sample} {q r : Nat} (h : firstOther b l q = some r) :
    q ≤ r ∧ l[r - q]? = some (!b) ∧ ∀ i, q ≤ i → i < r → l[i - q]? = some b := by
  induction l generalizing q with
  | nil => cases h
  | cons x xs ih =>
    simp only [firstOther] at h
    split at h
    · rename_i hx
      obtain ⟨h1, h2, h3⟩ := ih h
      refine ⟨by omega, ?_, ?_⟩
      · rw [show r - q = (r - (q + 1)) + 1 by omega]; simpa using h2
      · intro i hi hir
        rcases Nat.eq_or_lt_of_le hi with rfl | hlt
        · simp [hx]
        · rw [show i - q = (i - (q + 1)) + 1 by omega]; simpa using h3 i hlt hir
    · rename_i hx
      cases h
      refine ⟨by omega, ?_, fun i h1 h2 => absurd h2 (by omega)⟩
      cases x <;> cases b <;> simp_all

theorem firstOther_eq_none {b : Sample} {l : List Sample} {q : Nat} (h : firstOther b l q = none) :
    ∀ x ∈ l, x = b := by
  induction l generalizing q with
  | nil => simp
  | cons x xs ih =>
    simp only [firstOther] at h
    split at h
    · rename_i hx
      intro y hy
      rcases List.mem_cons.1 hy with rfl | hy
      · exact hx
      · exact ih h y hy
    · cases h

/-- The next edge is the least later index whose sample differs from the one at the cursor (20 R44). -/
theorem nextEdge_eq_some {S : List Sample} {p q : Nat} (h : nextEdge S p = some q) :
    ∃ b, S[p]? = some b ∧ p < q ∧ S[q]? = some (!b) ∧ ∀ i, p ≤ i → i < q → S[i]? = some b := by
  unfold nextEdge at h
  split at h
  · cases h
  · rename_i b rest hd
    obtain ⟨h1, h2, h3⟩ := firstOther_eq_some h
    have hget : ∀ i, p + 1 ≤ i → S[i]? = rest[i - (p + 1)]? := by
      intro i hi
      have : (S.drop p)[i - p]? = S[i]? := by
        rw [List.getElem?_drop]; congr 1; omega
      rw [← this, hd, show i - p = (i - (p + 1)) + 1 by omega]; simp
    have h0 : S[p]? = some b := by
      have : (S.drop p)[0]? = S[p]? := by rw [List.getElem?_drop]; simp
      rw [← this, hd]; simp
    refine ⟨b, h0, by omega, by rw [hget q h1]; exact h2, ?_⟩
    intro i hi hiq
    rcases Nat.eq_or_lt_of_le hi with rfl | hlt
    · exact h0
    · rw [hget i hlt]; exact h3 i hlt hiq

theorem nextEdge_lt {S : List Sample} {p q : Nat} (h : nextEdge S p = some q) : p < q ∧ q < S.length := by
  obtain ⟨b, _, h1, h2, _⟩ := nextEdge_eq_some h
  exact ⟨h1, by
    rcases Nat.lt_or_ge q S.length with h | h
    · exact h
    · rw [List.getElem?_eq_none h] at h2; cases h2⟩

/-- Without a next edge the rest of the stream stays at the level of the cursor. -/
theorem nextEdge_eq_none {S : List Sample} {p : Nat} (h : nextEdge S p = none) :
    ∀ q, p ≤ q → q < S.length → S[q]? = S[p]? := by
  intro q hpq hq
  unfold nextEdge at h
  split at h
  · rename_i hd
    have := List.drop_eq_nil_iff.1 hd
    omega
  · rename_i b rest hd
    have hall := firstOther_eq_none h
    have h0 : S[p]? = some b := by
      have : (S.drop p)[0]? = S[p]? := by rw [List.getElem?_drop]; simp
      rw [← this, hd]; simp
    rcases Nat.eq_or_lt_of_le hpq with rfl | hlt
    · rfl
    · have hq' : (S.drop p)[q - p]? = S[q]? := by rw [List.getElem?_drop]; congr 1; omega
      have hr : rest[q - (p + 1)]? = S[q]? := by
        rw [← hq', hd, show q - p = (q - (p + 1)) + 1 by omega]; simp
      rw [h0, ← hr]
      rcases hx : rest[q - (p + 1)]? with _ | x
      · rw [hr, List.getElem?_eq_none_iff] at hx; omega
      · rw [hall x (List.mem_of_getElem? hx)]

/-! The primitives: one spec lemma each (20 R42 to R45). -/

theorem level_eq_done {S : List Sample} {c c' : Cursor} {b : Bool} (h : level S c = .done b c') :
    c' = c ∧ S[c.pos]? = some b := by
  unfold level at h
  split at h
  · cases h; exact ⟨rfl, ‹_›⟩
  · cases h

theorem advance_eq_done {S : List Sample} {n : Nat} {c c' : Cursor} {u : Unit}
    (h : advance S n c = .done u c') : c' = { c with pos := c.pos + n } ∧ c.pos + n < S.length := by
  unfold advance at h
  dsimp only at h
  split at h
  · cases h; exact ⟨rfl, ‹_›⟩
  · cases h

theorem advance_of_lt {S : List Sample} {n : Nat} {c : Cursor} (h : c.pos + n < S.length) :
    advance S n c = .done () { c with pos := c.pos + n } := by
  simp [advance, h]

theorem advanceToNextEdge_eq_done {S : List Sample} {c c' : Cursor} {u : Unit}
    (h : advanceToNextEdge S c = .done u c') :
    ∃ q, nextEdge S c.pos = some q ∧ c' = { c with pos := q } := by
  unfold advanceToNextEdge at h
  split at h
  · cases h; exact ⟨_, ‹_›, rfl⟩
  · cases h

theorem samplesUntilNextEdge_eq_done {S : List Sample} {c c' : Cursor} {d : Nat}
    (h : samplesUntilNextEdge S c = .done d c') :
    ∃ q, nextEdge S c.pos = some q ∧ d = q - c.pos ∧ c' = c := by
  unfold samplesUntilNextEdge at h
  split at h
  · cases h; exact ⟨_, ‹_›, rfl, rfl⟩
  · cases h

/-! Forward: the cursor never moves back (10 R12) and only markers are made. -/

/-- A list of calls is markers only. -/
def MarkersOnly (l : List SinkCall) : Prop := ∀ x ∈ l, ∃ p k, x = .emitMarker p k

/-- From one cursor to another by a wire operation. -/
def Cursor.Forward (c c' : Cursor) : Prop :=
  c.pos ≤ c'.pos ∧ ∃ m, c'.trace = c.trace ++ m ∧ MarkersOnly m

/-- Every end of a wire operation is forward of its start. -/
def Wire.Forward {α : Type} (w : Wire α) (c : Cursor) : Prop :=
  match w with
  | .done _ c' => c.Forward c'
  | .exhausted c' => c.Forward c'

theorem Cursor.Forward.refl (c : Cursor) : c.Forward c :=
  ⟨Nat.le_refl _, [], by simp, by simp [MarkersOnly]⟩

theorem Cursor.Forward.trans {a b c : Cursor} (h : a.Forward b) (h' : b.Forward c) : a.Forward c := by
  obtain ⟨h1, m, hm, hm'⟩ := h
  obtain ⟨h2, n, hn, hn'⟩ := h'
  refine ⟨Nat.le_trans h1 h2, m ++ n, by simp [hn, hm], ?_⟩
  intro x hx
  rcases List.mem_append.1 hx with hx | hx
  · exact hm' x hx
  · exact hn' x hx

theorem Cursor.mark_forward (c : Cursor) (k : MarkerKind) : c.Forward (c.mark k) := by
  refine ⟨Nat.le_refl _, [.emitMarker c.pos k], rfl, ?_⟩
  intro x hx
  exact ⟨_, _, List.mem_singleton.1 hx⟩

theorem Wire.Forward.bind {α β : Type} {w : Wire α} {c : Cursor} {f : α → Cursor → Wire β}
    (h : w.Forward c) (hf : ∀ a c', c.Forward c' → (f a c').Forward c') : (w.bind f).Forward c := by
  cases w with
  | exhausted c' => exact h
  | done a c' =>
    have h' : c.Forward c' := h
    have h2 := hf a c' h'
    simp only [Wire.bind_done]
    cases hfa : f a c' with
    | done b c'' => rw [hfa] at h2; exact h'.trans h2
    | exhausted c'' => rw [hfa] at h2; exact h'.trans h2

theorem Wire.Forward.of_start {α : Type} {w : Wire α} {c c' : Cursor} (h : c.Forward c')
    (hw : w.Forward c') : w.Forward c := by
  cases w <;> exact Cursor.Forward.trans h hw

theorem done_forward {α : Type} (a : α) (c : Cursor) : (Wire.done a c).Forward c := Cursor.Forward.refl c

theorem done_mark_forward {α : Type} (a : α) (c : Cursor) (k : MarkerKind) :
    (Wire.done a (c.mark k)).Forward c := c.mark_forward k

theorem level_forward (S : List Sample) (c : Cursor) : (level S c).Forward c := by
  unfold level; split <;> exact Cursor.Forward.refl c

theorem advance_forward (S : List Sample) (n : Nat) (c : Cursor) : (advance S n c).Forward c := by
  unfold advance
  dsimp only
  split <;> exact ⟨Nat.le_add_right _ _, [], by simp, by simp [MarkersOnly]⟩

theorem advanceToNextEdge_forward (S : List Sample) (c : Cursor) : (advanceToNextEdge S c).Forward c := by
  unfold advanceToNextEdge
  split
  · exact ⟨Nat.le_of_lt (nextEdge_lt ‹_›).1, [], by simp, by simp [MarkersOnly]⟩
  · exact Cursor.Forward.refl c

theorem samplesUntilNextEdge_forward (S : List Sample) (c : Cursor) :
    (samplesUntilNextEdge S c).Forward c := by
  unfold samplesUntilNextEdge; split <;> exact Cursor.Forward.refl c

theorem brkSearch_forward (S : List Sample) (spb m : Nat) (turns : Nat) (t : Bool) (c : Cursor) :
    (brkSearch S spb m turns t c).Forward c := by
  induction turns generalizing t c with
  | zero => exact Cursor.Forward.refl c
  | succ turns ih =>
    refine (advanceToNextEdge_forward S c).bind fun _ c _ => (level_forward S c).bind fun high c _ => ?_
    refine Wire.Forward.bind ?_ fun _ c _ => (samplesUntilNextEdge_forward S c).bind fun d c _ => ?_
    · split
      · split
        · exact advanceToNextEdge_forward S c
        · exact .of_start (c.mark_forward _) (advanceToNextEdge_forward S _)
      · exact done_forward _ c
    · split
      · exact done_forward _ c
      · exact ih _ c

theorem brkMarks_forward (S : List Sample) (spb n : Nat) (c : Cursor) : (brkMarks S spb n c).Forward c := by
  induction n generalizing c with
  | zero => exact done_forward _ c
  | succ n ih =>
    refine (level_forward S c).bind fun b c _ => Wire.Forward.bind ?_ fun _ c _ => ih c
    exact .of_start (c.mark_forward _) (advance_forward S _ _)

theorem brkStop_forward (p : Config) (S : List Sample) (spb : Nat) (c : Cursor) : (brkStop p S spb c).Forward c := by
  refine (level_forward S c).bind fun high c _ => ?_
  refine .of_start (c.mark_forward (if high then .stopBit else .errFraming)) ?_
  refine (samplesUntilNextEdge_forward S _).bind fun d2 c _ => ?_
  split
  · exact (advance_forward S _ c).bind fun _ c _ => done_forward _ c
  · refine (advance_forward S _ c).bind fun _ c _ => ?_
    split
    · exact done_mark_forward _ c _
    · exact done_forward _ c

/-- BRK_SCAN moves the cursor forward and makes markers only. -/
theorem brkScan_forward (p : Config) (S : List Sample) (spb : Nat) (v : Version) (c : Cursor) :
    (brkScan p S spb v c).Forward c :=
  (brkSearch_forward S spb _ _ _ c).bind fun found c _ => (advance_forward S _ c).bind fun _ c _ =>
    (brkMarks_forward S spb found.bits c).bind fun _ c _ => (brkStop_forward p S spb c).bind fun _ c _ =>
      done_forward _ c

theorem readBits_forward (p : Config) (S : List Sample) (spb : Nat) (v : Version) (n : Nat) (value : Byte) (c : Cursor) :
    (readBits p S spb v n value c).Forward c := by
  induction n generalizing value c with
  | zero => exact done_forward _ c
  | succ n ih =>
    exact (advance_forward S _ c).bind fun _ c _ => (level_forward S c).bind fun b c _ =>
      .of_start (c.mark_forward _) (ih _ _)

theorem byteStart_forward (S : List Sample) (c : Cursor) : (byteStart S c).Forward c := by
  refine (advanceToNextEdge_forward S c).bind fun _ c _ => (level_forward S c).bind fun high c _ => ?_
  refine Wire.Forward.bind ?_ fun _ c _ => done_forward _ c
  split
  · exact .of_start (c.mark_forward _) (advanceToNextEdge_forward S _)
  · exact done_forward _ c

theorem byteLowStop_forward (p : Config) (S : List Sample) (spb : Nat) (v : Version) (value : Byte) (start : Nat)
    (ferr : Bool) (c : Cursor) : (byteLowStop p S spb v value start ferr c).Forward c := by
  refine (samplesUntilNextEdge_forward S c).bind fun d c _ => ?_
  split
  · refine (advanceToNextEdge_forward S c).bind fun _ c _ => ?_
    refine (samplesUntilNextEdge_forward S c).bind fun d c _ => ?_
    split
    · exact (advance_forward S _ c).bind fun _ c _ => done_forward _ c
    · exact done_mark_forward _ c _
  · exact done_mark_forward _ c _

/-- BYTE_READ moves the cursor forward and makes markers only. -/
theorem byteRead_forward (p : Config) (S : List Sample) (spb : Nat) (v : Version) (c : Cursor) :
    (byteRead p S spb v c).Forward c := by
  refine (byteStart_forward S c).bind fun ferr c _ => (advance_forward S _ c).bind fun _ c _ => ?_
  refine Wire.Forward.bind (.of_start (c.mark_forward _) (readBits_forward p S spb v 8 _ _)) fun value c _ => ?_
  refine (advance_forward S _ c).bind fun _ c _ => (level_forward S c).bind fun high c _ => ?_
  split
  · exact done_mark_forward _ c _
  · exact byteLowStop_forward p S spb v _ _ _ c

/-! What a completed wire operation returned (40 R90, 41 R100). -/

/-- The record of a completed scan. -/
theorem brkScan_eq_done {p : Config} {S : List Sample} {spb : Nat} {v : Version} {c c' : Cursor} {u : BreakRec}
    (h : brkScan p S spb v c = .done u c') :
    u.value = 0x00 ∧ u.endPos = c'.pos ∧ c.pos ≤ u.startPos ∧ u.startPos ≤ u.endPos := by
  obtain ⟨f, c1, h1, h⟩ := Wire.bind_eq_done h
  obtain ⟨_, c2, h2, h⟩ := Wire.bind_eq_done h
  obtain ⟨_, c3, h3, h⟩ := Wire.bind_eq_done h
  obtain ⟨_, c4, h4, h⟩ := Wire.bind_eq_done h
  cases h
  have f1 := brkSearch_forward S spb (p.minBrk.get v) (S.length + 1) false c
  have f2 := advance_forward S (half p spb) c1
  have f3 := brkMarks_forward S spb f.bits c2
  have f4 := brkStop_forward p S spb c3
  rw [h1] at f1; rw [h2] at f2; rw [h3] at f3; rw [h4] at f4
  exact ⟨rfl, rfl, f1.1, Nat.le_trans f2.1 (Nat.le_trans f3.1 f4.1)⟩

/-- The record of a read whose stop bit was low. -/
theorem byteLowStop_eq_done {p : Config} {S : List Sample} {spb : Nat} {v : Version} {value : Byte} {start : Nat}
    {e : Bool} {c c' : Cursor} {r : ReadResult} (h : byteLowStop p S spb v value start e c = .done r c') (hs : start ≤ c.pos) :
    match r with
    | .byte b => b.startPos = start ∧ b.endPos = c'.pos ∧ start ≤ c'.pos ∧ b.value = value
    | .breakField f => f.startPos = start ∧ f.endPos = c'.pos ∧ start ≤ c'.pos := by
  have hf := byteLowStop_forward p S spb v value start e c
  rw [h] at hf
  have hle : start ≤ c'.pos := Nat.le_trans hs hf.1
  obtain ⟨d, c1, h1, h⟩ := Wire.bind_eq_done h
  split at h
  · obtain ⟨_, c2, h2, h⟩ := Wire.bind_eq_done h
    obtain ⟨d', c3, h3, h⟩ := Wire.bind_eq_done h
    split at h
    · obtain ⟨_, c4, h4, h⟩ := Wire.bind_eq_done h
      cases h; exact ⟨rfl, rfl, hle⟩
    · cases h; exact ⟨rfl, rfl, hle, rfl⟩
  · cases h; exact ⟨rfl, rfl, hle, rfl⟩

/-- The record of a completed read. -/
theorem byteRead_eq_done {p : Config} {S : List Sample} {spb : Nat} {v : Version} {c c' : Cursor} {r : ReadResult}
    (h : byteRead p S spb v c = .done r c') :
    match r with
    | .byte b => b.endPos = c'.pos ∧ c.pos ≤ b.startPos ∧ b.startPos ≤ b.endPos
    | .breakField f => f.endPos = c'.pos ∧ c.pos ≤ f.startPos ∧ f.startPos ≤ f.endPos := by
  obtain ⟨e, c1, h1, h⟩ := Wire.bind_eq_done h
  obtain ⟨_, c2, h2, h⟩ := Wire.bind_eq_done h
  obtain ⟨value, c3, h3, h⟩ := Wire.bind_eq_done h
  obtain ⟨_, c4, h4, h⟩ := Wire.bind_eq_done h
  obtain ⟨high, c5, h5, h⟩ := Wire.bind_eq_done h
  have f1 := byteStart_forward S c
  have f2 := advance_forward S (half p spb) c1
  have f3 := readBits_forward p S spb v 8 0x00 (c2.mark .startBit)
  have f4 := advance_forward S spb c3
  have f5 := level_forward S c4
  rw [h1] at f1; rw [h2] at f2; rw [h3] at f3; rw [h4] at f4; rw [h5] at f5
  have hle : c1.pos ≤ c5.pos := Nat.le_trans f2.1 (Nat.le_trans f3.1 (Nat.le_trans f4.1 f5.1))
  split at h
  · cases h; exact ⟨rfl, f1.1, hle⟩
  · have := byteLowStop_eq_done h hle
    cases r with
    | byte b => exact ⟨this.2.1, this.1 ▸ f1.1, this.1 ▸ this.2.1 ▸ this.2.2.1⟩
    | breakField f => exact ⟨this.2.1, this.1 ▸ f1.1, this.1 ▸ this.2.1 ▸ this.2.2⟩

/-! The recursion bound of the search is never what ends it. -/

/-- With more turns than samples ahead of the cursor, one more turn changes nothing: each turn moves the
cursor forward by at least one sample. -/
theorem brkSearch_turns (S : List Sample) (spb m : Nat) (turns : Nat) (t : Bool) (c : Cursor)
    (h : S.length < turns + c.pos) : brkSearch S spb m (turns + 1) t c = brkSearch S spb m turns t c := by
  induction turns generalizing t c with
  | zero =>
    have hn : nextEdge S c.pos = none := by
      cases hq : nextEdge S c.pos with
      | none => rfl
      | some q => have := nextEdge_lt hq; omega
    simp [brkSearch, advanceToNextEdge, hn]
  | succ turns ih =>
    rw [brkSearch]
    conv => rhs; rw [brkSearch]
    cases hq : nextEdge S c.pos with
    | none => simp [advanceToNextEdge, hq]
    | some q =>
      have hlt := nextEdge_lt hq
      simp only [advanceToNextEdge, hq, Wire.bind_done]
      cases hl : level S { c with pos := q } with
      | exhausted c1 => rfl
      | done high c1 =>
        obtain ⟨rfl, _⟩ := level_eq_done hl
        simp only [Wire.bind_done]
        cases hx : (if high = true then
            (match nextEdge S (if t = true then ({ c with pos := q } : Cursor)
                else ({ c with pos := q } : Cursor).mark .errToggling).pos with
              | some q_1 => Wire.done () { (if t = true then ({ c with pos := q } : Cursor)
                else ({ c with pos := q } : Cursor).mark .errToggling) with pos := q_1 }
              | none => Wire.exhausted (if t = true then ({ c with pos := q } : Cursor)
                else ({ c with pos := q } : Cursor).mark .errToggling))
            else Wire.done () ({ c with pos := q } : Cursor)) with
        | exhausted c2 => rfl
        | done u c2 =>
          have h2 : q ≤ c2.pos := by
            split at hx
            · split at hx
              · have h3 := (nextEdge_lt ‹_›).1
                cases hx
                have : (if t = true then ({ c with pos := q } : Cursor)
                  else ({ c with pos := q } : Cursor).mark .errToggling).pos = q := by split <;> rfl
                rw [this] at h3
                exact Nat.le_of_lt h3
              · cases hx
            · cases hx; exact Nat.le_refl _
          simp only [Wire.bind_done]
          cases hs : samplesUntilNextEdge S c2 with
          | exhausted c3 => rfl
          | done d c3 =>
            obtain ⟨_, _, _, rfl⟩ := samplesUntilNextEdge_eq_done hs
            simp only [Wire.bind_done]
            split
            · rfl
            · exact ih _ _ (by omega)

end Sys2Proof.Machine
end

