-- ==== Sys2Proof/Tests/Slice0.lean ====
section
/-! SUPPORT. The model's own tests: ill-formed operands refused, words written out from the spec's encodings, one
step each on small states with results from spec/95_test_vectors.md (the vector is named beside each), and for
every statement with hypotheses a concrete case that meets them. -/

namespace Sys2Proof.Tests

open Sys2Proof.Machine

/-- The next state of an outcome, if it has one. -/
def next (o : Outcome) : Option State :=
  match o with
  | .next s => some s
  | .fault _ => none
  | .refused _ => none

/-- A V2 session at eight samples a bit. -/
def inV2 : State := { State.reset with mode := .run, spb := 8 }

/-- A V1 session at eight samples a bit. -/
def inV1 : State := { inV2 with version := 0 }

/-- A V1Extended session at eight samples a bit. -/
def inV1x : State := { inV2 with version := 1 }

/-- A session on a whole stream. -/
def on (s : State) (samples : List Sample) : State := { s with samples := samples, streamEnded := true }

/-- Byte records with the positions of no interest. -/
def byteAt (value : Byte) : ByteRec := { value := value, startPos := 0, endPos := 0, ferr := false }

/-- A break record of some bits. -/
def breakAt (start fin bits : Nat) : BreakRec :=
  { value := 0x00, startPos := start, endPos := fin, bits := bits, toggling := false, ferr := false }

/-- A unit of a byte step. -/
def unit (st : FrameState) (value : Byte) (index : BitVec 8) (start fin : Nat) (flags : Flags) : SinkCall :=
  .emitFrame { state := st, rawValue := value, sequenceIndex := index, startPos := start, endPos := fin,
               flags := flags }

/-- Runs of samples, the first of the given level. -/
def runs (b : Bool) : List Nat → List Sample
  | [] => []
  | n :: rest => line n b ++ runs (!b) rest

/-! Well-formed operands (40 R90, 41 R100, 43 R140): each check refuses an ill-formed term. -/

theorem test_wf_refuses_break_startPos : Instr.wellFormed cfg (.stNoframe { zeroBreak with startPos := 18446744073709551616 }) = false := by decide

theorem test_wf_refuses_break_endPos : Instr.wellFormed cfg (.stNoframe { zeroBreak with endPos := 18446744073709551616 }) = false := by decide

theorem test_wf_refuses_break_bits : Instr.wellFormed cfg (.stNoframe { zeroBreak with bits := 18446744073709551616 }) = false := by decide

theorem test_wf_refuses_headerbreak : Instr.wellFormed cfg (.stHeaderbreak { zeroBreak with startPos := 18446744073709551616 }) = false := by decide

theorem test_wf_refuses_stheaderid1 : Instr.wellFormed cfg (.stHeaderid1 { zeroByte with startPos := 18446744073709551616 }) = false := by decide

theorem test_wf_refuses_stheaderid2 : Instr.wellFormed cfg (.stHeaderid2 { zeroByte with startPos := 18446744073709551616 }) = false := by decide

theorem test_wf_refuses_stinstr1 : Instr.wellFormed cfg (.stInstr1 { zeroByte with startPos := 18446744073709551616 }) = false := by decide

theorem test_wf_refuses_stinstr2 : Instr.wellFormed cfg (.stInstr2 { zeroByte with startPos := 18446744073709551616 }) = false := by decide

theorem test_wf_refuses_stdata : Instr.wellFormed cfg (.stData { zeroByte with startPos := 18446744073709551616 }) = false := by decide

theorem test_wf_refuses_stcrc1 : Instr.wellFormed cfg (.stCrc1 { zeroByte with startPos := 18446744073709551616 }) = false := by decide

theorem test_wf_refuses_stcrc2 : Instr.wellFormed cfg (.stCrc2 { zeroByte with startPos := 18446744073709551616 }) = false := by decide

theorem test_wf_refuses_stack : Instr.wellFormed cfg (.stAck { zeroByte with startPos := 18446744073709551616 }) = false := by decide

theorem test_wf_refuses_byte_endPos : Instr.wellFormed cfg (.stData { zeroByte with endPos := 18446744073709551616 }) = false := by decide

theorem test_wf_refuses_break_field_startPos : Instr.wellFormed cfg (.missingByte { startPos := 18446744073709551616, endPos := 0, bits := 0, ferr := false }) = false := by decide

theorem test_wf_refuses_break_field_endPos : Instr.wellFormed cfg (.missingByte { startPos := 0, endPos := 18446744073709551616, bits := 0, ferr := false }) = false := by decide

theorem test_wf_refuses_break_field_bits : Instr.wellFormed cfg (.missingByte { startPos := 0, endPos := 0, bits := 18446744073709551616, ferr := false }) = false := by decide

theorem test_wf_refuses_len_version_3 : Instr.wellFormed cfg (.len 3 0x00 0x00) = false := by decide

theorem test_wf_refuses_row_fsel :
    Instr.wellFormed cfg (.lenV2F0C1 2 0x10 0x32) = false ∧ Instr.wellFormed cfg (.lenV2F1C1 2 0x10 0x22) = false := by
  decide

theorem test_wf_refuses_row_code : Instr.wellFormed cfg (.lenV2F0C1 2 0x10 0x24) = false := by decide

theorem test_wf_refuses_row_version :
    Instr.wellFormed cfg (.lenV2F0C1 0 0x10 0x22) = false ∧ Instr.wellFormed cfg (.lenV2F0C1 3 0x10 0x22) = false := by
  decide

theorem test_wf_refuses_v1_fsel :
    Instr.wellFormed cfg (.lenV1F0 0x15 0x00) = false ∧ Instr.wellFormed cfg (.lenV1F1 0x0E 0x00) = false ∧
      Instr.wellFormed cfg (.lenV1xF0 0x15 0x00) = false ∧ Instr.wellFormed cfg (.lenV1xF1 0x0E 0x00) = false := by
  decide

theorem test_wf_refuses_instr_bit_clear : Instr.wellFormed cfg (.instrV2 0x33 0x04) = false := by decide

/-- The position width is the parameter's: at eight bits 256 does not fit. -/
theorem test_wf_follows_posW :
    Instr.wellFormed { cfg with posW := 8 } (.stNoframe { zeroBreak with startPos := 256 }) = false := by decide

theorem test_decode_follows_parameters :
    decode { cfg with v2LenLsb := 5, v2FselBit := 0 } (.header 0b10_00010000_01100001) =
      .ok (.lenV2F1C3 2 0x10 0x61) := by decide

theorem test_wf_accepts_rows :
    Instr.wellFormed cfg (.lenV2F0C1 2 0x10 0x22) = true ∧ Instr.wellFormed cfg (.lenV1F0 0x0E 0x80) = true ∧
      Instr.wellFormed cfg (.instrV2 0x33 0x05) = true := by decide

theorem test_wf_accepts_largest_position :
    Instr.wellFormed cfg (.stNoframe { zeroBreak with startPos := 18446744073709551615 }) = true := by decide

/-! Words written out bit by bit (30 R62, R70, R76 and spec/opcode_table.json). -/

theorem test_word_stNoframe : decode cfg (.state 0b0000 (.brk zeroBreak)) = .ok (.stNoframe zeroBreak) := rfl

theorem test_word_stHeaderbreak : decode cfg (.state 0b0001 (.brk zeroBreak)) = .ok (.stHeaderbreak zeroBreak) := rfl

theorem test_word_stHeaderid1 : decode cfg (.state 0b0010 (.byte zeroByte)) = .ok (.stHeaderid1 zeroByte) := rfl

theorem test_word_stHeaderid2 : decode cfg (.state 0b0011 (.byte zeroByte)) = .ok (.stHeaderid2 zeroByte) := rfl

theorem test_word_stInstr1 : decode cfg (.state 0b0100 (.byte zeroByte)) = .ok (.stInstr1 zeroByte) := rfl

theorem test_word_stInstr2 : decode cfg (.state 0b0101 (.byte zeroByte)) = .ok (.stInstr2 zeroByte) := rfl

theorem test_word_stData : decode cfg (.state 0b0110 (.byte zeroByte)) = .ok (.stData zeroByte) := rfl

theorem test_word_stCrc1 : decode cfg (.state 0b0111 (.byte zeroByte)) = .ok (.stCrc1 zeroByte) := rfl

theorem test_word_stCrc2 : decode cfg (.state 0b1000 (.byte zeroByte)) = .ok (.stCrc2 zeroByte) := rfl

theorem test_word_stAck : decode cfg (.state 0b1001 (.byte zeroByte)) = .ok (.stAck zeroByte) := rfl

theorem test_word_missing_byte :
    decode cfg (.state 0b0110 (.breakField ⟨440, 540, 12, false⟩)) = .ok (.missingByte ⟨440, 540, 12, false⟩) := rfl

theorem test_word_state_10_refused :
    decode cfg (.state 0b1010 (.byte zeroByte)) = .error (.reservedState 0b1010) := rfl

theorem test_word_state_15_refused :
    decode cfg (.state 0b1111 (.byte zeroByte)) = .error (.reservedState 0b1111) := rfl

theorem test_word_lenV2F0C0 :
    decode cfg (.header 0b10_00010000_10100000) = .ok (.lenV2F0C0 2 0x10 0b10100000) := rfl

theorem test_word_lenV2F0C1 :
    decode cfg (.header 0b10_00010000_10100010) = .ok (.lenV2F0C1 2 0x10 0b10100010) := rfl

theorem test_word_lenV2F0C2 :
    decode cfg (.header 0b10_00010000_10100100) = .ok (.lenV2F0C2 2 0x10 0b10100100) := rfl

theorem test_word_lenV2F0C3 :
    decode cfg (.header 0b10_00010000_10100110) = .ok (.lenV2F0C3 2 0x10 0b10100110) := rfl

theorem test_word_lenV2F0C4 :
    decode cfg (.header 0b10_00010000_10101000) = .ok (.lenV2F0C4 2 0x10 0b10101000) := rfl

theorem test_word_lenV2F0C5 :
    decode cfg (.header 0b10_00010000_10101010) = .ok (.lenV2F0C5 2 0x10 0b10101010) := rfl

theorem test_word_lenV2F0C6 :
    decode cfg (.header 0b10_00010000_10101100) = .ok (.lenV2F0C6 2 0x10 0b10101100) := rfl

theorem test_word_lenV2F0C7 :
    decode cfg (.header 0b10_00010000_10101110) = .ok (.lenV2F0C7 2 0x10 0b10101110) := rfl

theorem test_word_lenV2F1C0 :
    decode cfg (.header 0b10_00010000_10110000) = .ok (.lenV2F1C0 2 0x10 0b10110000) := rfl

theorem test_word_lenV2F1C1 :
    decode cfg (.header 0b10_00010000_10110010) = .ok (.lenV2F1C1 2 0x10 0b10110010) := rfl

theorem test_word_lenV2F1C2 :
    decode cfg (.header 0b10_00010000_10110100) = .ok (.lenV2F1C2 2 0x10 0b10110100) := rfl

theorem test_word_lenV2F1C3 :
    decode cfg (.header 0b10_00010000_10110110) = .ok (.lenV2F1C3 2 0x10 0b10110110) := rfl

theorem test_word_lenV2F1C4 :
    decode cfg (.header 0b10_00010000_10111000) = .ok (.lenV2F1C4 2 0x10 0b10111000) := rfl

theorem test_word_lenV2F1C5 :
    decode cfg (.header 0b10_00010000_10111010) = .ok (.lenV2F1C5 2 0x10 0b10111010) := rfl

theorem test_word_lenV2F1C6 :
    decode cfg (.header 0b10_00010000_10111100) = .ok (.lenV2F1C6 2 0x10 0b10111100) := rfl

theorem test_word_lenV2F1C7 :
    decode cfg (.header 0b10_00010000_10111110) = .ok (.lenV2F1C7 2 0x10 0b10111110) := rfl

theorem test_word_lenV1F0 : decode cfg (.header 0b00_00001110_10000000) = .ok (.lenV1F0 0x0E 0x80) := rfl

theorem test_word_lenV1xF0 : decode cfg (.header 0b01_00001110_10000000) = .ok (.lenV1xF0 0x0E 0x80) := rfl

theorem test_word_lenV1F1 : decode cfg (.header 0b00_00010101_10101000) = .ok (.lenV1F1 0x15 0xA8) := rfl

theorem test_word_lenV1xF1 : decode cfg (.header 0b01_00010101_00000000) = .ok (.lenV1xF1 0x15 0x00) := rfl

theorem test_word_version_3_refused :
    decode cfg (.header 0b11_00000000_00000000) = .error .reservedVersion := rfl

theorem test_word_instrV2 :
    decode cfg (.instrBit 0b10_00110011_00000101) = .ok (.instrV2 0x33 0x05) := rfl

theorem test_word_instr_bit_clear :
    decode cfg (.instrBit 0b10_00110011_00000100) = .error .noInstructionBit := rfl

theorem test_word_instr_bit_not_in_v1 :
    decode cfg (.instrBit 0b00_00110011_00000101) = .error .noInstructionBit := rfl

theorem test_word_byte_frame : decode cfg (.frame 0b0_10111000_1) = .ok .byteRead := rfl

/-- The data symbols 1,0,1,1,1,0,0,0 are 0xB8 in V1 and 0x1D in V2 (20 R56). -/
theorem test_frame_values :
    frameValue cfg .v1 0b0_10111000_1 = 0xB8 ∧ frameValue cfg .v2 0b0_10111000_1 = 0x1D ∧
      frameOf cfg .v2 0x1D = 0b0_10111000_1 := by decide

theorem test_table_word_instr_before_len : decodeTableWord 24 0x23301 = some (.instrV2 0x33 0x01) := rfl

theorem test_table_word_len : decodeTableWord 24 0x21022 = some (.lenV2F0C1 2 0x10 0x22) := rfl

theorem test_table_word_state : decodeTableWord 8 6 = some (.stData zeroByte) := rfl

/-! The state steps (95 section 7). -/

theorem test_noframe_accepts_F1 :
    (next (exec (.stNoframe (breakAt 16 127 13)) { inV2 with crc := 0x1234, crcPar := true })).map
      (fun t => ((t.state, t.crc, t.crcPar), (t.brkBits, t.lastEnd, t.sink))) =
    some ((.headerId1, 0xFFFF, false), (13, 127,
      [.commit, unit .headerBreak 0x00 0 16 127 Flags.empty])) := by decide

theorem test_noframe_rejects_F4 :
    (next (exec (.stNoframe { breakAt 8 103 11 with value := 0x42 }) { inV2 with crc := 0x1234 })).map
      (fun t => (t.state, t.crc, t.lastEnd, t.sink)) =
    some (.noFrame, 0x1234, 103,
      [unit .headerBreak 0x42 0 8 103 { Flags.empty with headerBreakExpected := true }, .cancel]) := by decide

theorem test_headerbreak_toggling_F2 :
    (next (exec (.stHeaderbreak { breakAt 131 259 15 with toggling := true })
        { inV2 with state := .headerBreak })).map (fun t => (t.state, t.brkBits, t.sink)) =
    some (.headerId1, 15,
      [.commit, unit .headerBreak 0x00 0 131 259 { Flags.empty with unexpectedToggling := true }]) := by decide

theorem test_headerid1_held_F5 :
    (next (exec (.stHeaderid1 ⟨0x10, 128, 204, false⟩) { inV2 with state := .headerId1 })).map
      (fun t => ((t.id1, t.crcHold, t.crcPar, t.crc), (t.state, t.lastEnd, t.sink))) =
    some ((0x10, 0x10, true, 0xFFFF), (.headerId2, 204,
      [unit .headerId1 0x10 0 128 204 Flags.empty])) := by decide

theorem test_headerid1_added_F6 :
    (next (exec (.stHeaderid1 (byteAt 0x10)) { inV1 with state := .headerId1 })).map
      (fun t => (t.id1, t.crc, t.crcPar, t.state)) = some (0x10, 0xF3C1, false, .headerId2) := by decide

theorem test_headerid2_length_F7 :
    (next (exec (.stHeaderid2 ⟨0x22, 208, 284, false⟩)
        { inV2 with state := .headerId2, id1 := 0x10, crcPar := true, crcHold := 0x10 })).map
      (fun t => ((t.id2, t.bodyLen, t.remaining), (t.crc, t.crcPar, t.state))) =
    some ((0x22, 2, 2), (0x6FBA, false, .dataByte)) := by decide +kernel

theorem test_headerid2_instr_F10 :
    (next (exec (.stHeaderid2 (byteAt 0x05)) { inV2 with state := .headerId2, id1 := 0x33 })).map
      (fun t => (t.bodyLen, t.state)) = some (4, .instructionByte1) := by decide

theorem test_instr1_F12 :
    (next (exec (.stInstr1 (byteAt 0xA5)) { inV2 with state := .instructionByte1 })).map
      (fun t => (t.crcHold, t.crcPar, t.state)) = some (0xA5, true, .instructionByte2) := by decide

theorem test_instr2_F13 :
    (next (exec (.stInstr2 (byteAt 0xC3))
        { inV2 with state := .instructionByte2, crc := 0x280E, crcPar := true, crcHold := 0xA5 })).map
      (fun t => (t.crc, t.crcPar, t.state)) = some (0xC8C9, false, .crcByte1) := by decide +kernel

theorem test_instr2_body_F14 :
    (next (exec (.stInstr2 (byteAt 0xC3)) { inV2 with state := .instructionByte2, bodyLen := 4 })).map
      (·.state) = some .dataByte := by decide

theorem test_data_first_F17 :
    (next (exec (.stData ⟨0xAA, 272, 348, true⟩)
        { inV2 with state := .dataByte, bodyLen := 2, remaining := 2 })).map
      (fun t => (t.remaining, t.state, t.crcHold, t.crcPar, t.sink)) =
    some (1, .dataByte, 0xAA, true,
      [unit .dataByte 0xAA 1 272 348 { Flags.empty with framingError := true }]) := by decide

theorem test_data_last_F16 :
    (next (exec (.stData ⟨0x55, 368, 444, false⟩)
        { inV2 with
          state := .dataByte, bodyLen := 2, remaining := 1, crc := 0x6FBA, crcPar := true, crcHold := 0xAA })).map
      (fun t => (t.remaining, t.state, t.crc, t.crcPar, t.sink)) =
    some (0, .crcByte1, 0xF86F, false, [unit .dataByte 0x55 2 368 444 Flags.empty]) := by decide +kernel

theorem test_crc1_F18 :
    (next (exec (.stCrc1 (byteAt 0x6F)) { inV2 with state := .crcByte1, crc := 0xF86F })).map
      (fun t => (t.crcB1, t.crc, t.state)) = some (0x6F, 0xF86F, .crcByte2) := by decide

theorem test_crc2_mismatch_F20 :
    (next (exec (.stCrc2 (byteAt 0xF9))
        { inV2 with
          state := .crcByte2, crc := 0xF86F, crcB1 := 0x6F, id1 := 0x10, id2 := 0x22, ackEn := true })).map
      (fun t => (t.state, t.ackAccept, t.sink)) =
    some (.noFrame, 0x00,
      [unit .crcByte2 0xF9 0 0 0 { Flags.empty with crcMismatch := true }, .commit]) := by decide

theorem test_crc2_expects_ack_F21 :
    (next (exec (.stCrc2 (byteAt 0x6D))
        { inV2 with
          state := .crcByte2, crc := 0x6DE8, crcB1 := 0xE8, id1 := 0x07, id2 := 0x00, ackEn := true })).map
      (fun t => (t.state, t.ackAccept, t.sink)) =
    some (.ackByte, 0x7E, [unit .crcByte2 0x6D 0 0 0 Flags.empty]) := by decide

theorem test_ack_wrong_F25 :
    (next (exec (.stAck { byteAt 0x00 with ferr := true })
        { inV2 with state := .ackByte, ackAccept := 0x7E })).map (fun t => (t.state, t.sink)) =
    some (.noFrame,
      [unit .ackByte 0x00 0 0 0 { Flags.empty with framingError := true, receptionFailed := true },
        .commit]) := by decide

theorem test_missing_byte_F26 :
    (next (exec (.missingByte ⟨440, 540, 12, false⟩)
        { inV2 with state := .dataByte, remaining := 2, lastEnd := 436 })).map
      (fun t => ((t.state, t.pendingBreak, t.remaining), (t.pbStart, t.pbEnd, t.pbBits, t.pbFerr), t.sink)) =
    some ((.noFrame, true, 2), (440, 540, 12, false), [.cancel, .emitMissingByte 436 440]) := by decide

theorem test_iter_pending_F27 :
    (next (exec .iter
        { inV2 with pendingBreak := true, pbStart := 440, pbEnd := 540, pbBits := 12 })).map
      (fun t => (t.state, t.pendingBreak, t.brkBits, t.lastEnd, t.sink)) =
    some (.headerId1, false, 12, 540, [.commit, unit .headerBreak 0x00 0 440 540 Flags.empty]) := by decide

/-- 42 R110: ITER in a byte state reads the byte and runs the state step. -/
theorem test_iter_byte :
    (next (exec .iter (on { inV2 with state := .crcByte1, spb := 2 }
        (waveform cfg .v2 2 [.idle 1, .byte 0x6F true])))).map (fun t => (t.state, t.crcB1, t.pos, t.mode)) =
    some (.crcByte2, 0x6F, 21, .run) := by decide +kernel

theorem test_session_cancel_F29 :
    (next (exec .iter { inV2 with state := .dataByte, cancel := true })).map
      (fun t => (t.mode, t.doneCause, t.state, t.sink)) = some (.done, .cancelled, .dataByte, []) := by decide

theorem test_session_cancel : (next (exec .sessionCancel inV2)).map (·.mode) = some .done := by decide

theorem test_session_exhaust :
    (next (exec .sessionExhaust inV2)).map (fun t => (t.mode, t.doneCause)) = some (.done, .exhausted) := by
  decide

/-- 42 R127 example. -/
theorem test_session_start :
    (next (exec .sessionStart { State.reset with spb := 8 })).map (fun t => (t.mode, t.pos, t.state)) =
    some (.run, 0, .noFrame) := by decide

theorem test_session_start_refused_F30_F31 :
    (next (exec .sessionStart { State.reset with spb := 1 })).map (·.mode) = some .idle ∧
      (next (exec .sessionStart { State.reset with spb := 8, version := 3 })).map (·.mode) = some .idle := by
  decide

/-! The wire operations (95 sections 2 and 3). -/

/-- K2, K5, K7: distances to the next edge; K12: none. -/
theorem test_next_edge :
    [0, 3, 5, 7, 9].map (nextEdge (runs true [3, 4, 2, 1])) = [some 3, some 7, some 7, some 9, none] := by decide

theorem test_rnd :
    [83, 84, 91, 92, 99, 100].map (rnd 8) = [10, 11, 11, 12, 12, 13] ∧
      [94, 95].map (rnd 9) = [10, 11] ∧ [21, 25].map (rnd 2) = [11, 13] := by decide

/-- S13, a stop bit that reads low, and S17. -/
theorem test_brk_scan_stop_S13_S17 :
    (next (exec .brkScan (on inV2 (runs true [8, 88, 2, 6, 50])))).map (fun t => (t.result, t.pos, t.sink.drop 11)) =
        some (.brk { breakAt 8 103 11 with ferr := true }, 103, [.emitMarker 100 .errFraming]) ∧
      (next (exec .brkScan (on inV2 (runs true [8, 84, 30, 6, 50])))).map
        (fun t => (t.result, t.pos, t.sink.drop 10)) =
        some (.brk (breakAt 8 104 11), 104, [.emitMarker 92 .bitOne, .emitMarker 100 .stopBit]) := by
  decide +kernel

/-- S3, two low runs that are too short, and S11, a line that is low at the cursor. -/
theorem test_brk_scan_toggling_S3_S11 :
    (next (exec .brkScan (on inV2 (runs true [8, 83, 16, 8, 16, 120, 40, 8, 8])))).map
        (fun t => (t.result, t.pos, t.sink.take 2)) =
        some (.brk { breakAt 131 259 15 with toggling := true }, 259,
          [.emitMarker 91 .errToggling, .emitMarker 135 .bitZero]) ∧
      (next (exec .brkScan (on inV2 (runs false [20, 10, 120, 40, 8, 8])))).map
        (fun t => (t.result, t.pos, t.sink.take 1)) =
        some (.brk { breakAt 30 158 15 with toggling := true }, 158, [.emitMarker 20 .errToggling]) := by
  decide +kernel

theorem test_byte_read_B1 :
    (next (exec .byteRead (on inV2 (waveform cfg .v2 8 [.idle 2, .byte 0x1D true, .idle 3])))).map
      (fun t => (t.result, t.pos, t.sink)) =
    some (.read (.byte ⟨0x1D, 16, 92, false⟩), 92,
      [.emitMarker 20 .startBit, .emitMarker 28 .bitOne, .emitMarker 36 .bitZero, .emitMarker 44 .bitOne,
        .emitMarker 52 .bitOne, .emitMarker 60 .bitOne, .emitMarker 68 .bitZero, .emitMarker 76 .bitZero,
        .emitMarker 84 .bitZero, .emitMarker 92 .stopBit]) := by decide +kernel

theorem test_byte_read_B17 :
    (next (exec .byteRead (on inV1 (runs true [10, 101, 16, 8, 40])))).map (fun t => (t.result, t.pos)) =
    some (.read (.breakField ⟨10, 115, 13, false⟩), 115) := by decide +kernel

/-! The length decoder (95 section 4), CRC (section 5) and ACK policy (section 6). -/

theorem test_len_43_R140 :
    (next (exec (.len 2 0x10 0x22) inV2)).map (·.result) = some (.length 2) ∧
      (next (exec (.len 0 0x0E 0x80) inV2)).map (·.result) = some (.length 6) ∧
      (next (exec (.len 1 0x15 0x00) inV2)).map (·.result) = some (.length 2) := by decide

theorem test_lenV2F0C0 :
    (next (exec (.lenV2F0C0 2 0x00 0x00) inV2)).map (·.result) = some (.length 0) ∧
      len cfg .v2 0x00 0x00 = 0 := by decide

theorem test_lenV2F0C1 :
    (next (exec (.lenV2F0C1 2 0x00 0x02) inV2)).map (·.result) = some (.length 2) ∧
      len cfg .v2 0x00 0x02 = 2 := by decide

theorem test_lenV2F0C2 :
    (next (exec (.lenV2F0C2 2 0x00 0x04) inV2)).map (·.result) = some (.length 4) ∧
      len cfg .v2 0x00 0x04 = 4 := by decide

theorem test_lenV2F0C3 :
    (next (exec (.lenV2F0C3 2 0x00 0x06) inV2)).map (·.result) = some (.length 6) ∧
      len cfg .v2 0x00 0x06 = 6 := by decide

theorem test_lenV2F0C4 :
    (next (exec (.lenV2F0C4 2 0x00 0x08) inV2)).map (·.result) = some (.length 8) ∧
      len cfg .v2 0x00 0x08 = 8 := by decide

theorem test_lenV2F0C5 :
    (next (exec (.lenV2F0C5 2 0x00 0x0A) inV2)).map (·.result) = some (.length 10) ∧
      len cfg .v2 0x00 0x0A = 10 := by decide

theorem test_lenV2F0C6 :
    (next (exec (.lenV2F0C6 2 0x00 0x0C) inV2)).map (·.result) = some (.length 18) ∧
      len cfg .v2 0x00 0x0C = 18 := by decide

theorem test_lenV2F0C7 :
    (next (exec (.lenV2F0C7 2 0x00 0x0E) inV2)).map (·.result) = some (.length 24) ∧
      len cfg .v2 0x00 0x0E = 24 := by decide

theorem test_lenV2F1C0 :
    (next (exec (.lenV2F1C0 2 0x00 0x10) inV2)).map (·.result) = some (.length 6) ∧
      len cfg .v2 0x00 0x10 = 6 := by decide

theorem test_lenV2F1C1 :
    (next (exec (.lenV2F1C1 2 0x00 0x12) inV2)).map (·.result) = some (.length 12) ∧
      len cfg .v2 0x00 0x12 = 12 := by decide

theorem test_lenV2F1C2 :
    (next (exec (.lenV2F1C2 2 0x00 0x14) inV2)).map (·.result) = some (.length 24) ∧
      len cfg .v2 0x00 0x14 = 24 := by decide

theorem test_lenV2F1C3 :
    (next (exec (.lenV2F1C3 2 0x00 0x16) inV2)).map (·.result) = some (.length 36) ∧
      len cfg .v2 0x00 0x16 = 36 := by decide

theorem test_lenV2F1C4 :
    (next (exec (.lenV2F1C4 2 0x00 0x18) inV2)).map (·.result) = some (.length 48) ∧
      len cfg .v2 0x00 0x18 = 48 := by decide

theorem test_lenV2F1C5 :
    (next (exec (.lenV2F1C5 2 0x00 0x1A) inV2)).map (·.result) = some (.length 60) ∧
      len cfg .v2 0x00 0x1A = 60 := by decide

theorem test_lenV2F1C6 :
    (next (exec (.lenV2F1C6 2 0x00 0x1C) inV2)).map (·.result) = some (.length 84) ∧
      len cfg .v2 0x00 0x1C = 84 := by decide

theorem test_lenV2F1C7 :
    (next (exec (.lenV2F1C7 2 0x00 0x1E) inV2)).map (·.result) = some (.length 128) ∧
      len cfg .v2 0x00 0x1E = 128 := by decide

theorem test_lenV1F0 :
    [0x1F, 0x20, 0x60, 0xE0].map (fun b => (next (exec (.lenV1F0 0x0E b) inV1)).map (·.result)) =
      [some (.length 0), some (.length 6), some (.length 12), some (.length 18)] := by decide

theorem test_lenV1xF0 :
    [0x1F, 0x20, 0x60, 0xE0].map (fun b => (next (exec (.lenV1xF0 0x0E b) inV1x)).map (·.result)) =
      [some (.length 0), some (.length 6), some (.length 12), some (.length 18)] := by decide

theorem test_lenV1F1 :
    [0x03, 0x10, 0x54, 0xFC].map (fun b => (next (exec (.lenV1F1 0x15 b) inV1)).map (·.result)) =
      [some (.length 0), some (.length 6), some (.length 18), some (.length 36)] := by decide

theorem test_lenV1xF1 :
    [0x0C, 0x10, 0x54, 0xFC].map (fun b => (next (exec (.lenV1xF1 0x15 b) inV1x)).map (·.result)) =
      [some (.length 2), some (.length 4), some (.length 12), some (.length 32)] := by decide

theorem test_instrV2 : (next (exec (.instrV2 0x33 0x05) inV2)).map (·.state) = some .instructionByte1 := by decide

/-- 44 R150 example. -/
theorem test_crc_reset :
    (next (exec .crcReset { inV2 with crc := 0x6FBA, crcPar := true, crcHold := 0x10 })).map
      (fun t => (t.crc, t.crcPar, t.crcHold)) = some (0xFFFF, false, 0x10) := by decide

/-- X3, X5: the top bits of register and byte matter separately. -/
theorem test_crc_add :
    (next (exec (.crcAdd 0xFFFF 0xFF) inV2)).map (·.result) = some (.crc 0xFF00) ∧
      (next (exec (.crcAdd 0xFFFF 0x80) inV2)).map (·.result) = some (.crc 0x7078) := by decide

/-- X13, X14, X15. -/
theorem test_crc16 :
    crc16 cfg [0x15, 0x00, 0x12, 0x34] = 0x30E4 ∧ crc16 cfg [0x20, 0x06] = 0x7B2F ∧
      crc16 cfg [0x0E, 0x80, 0x01, 0x02, 0x03, 0x04, 0x05, 0x06] = 0xDDDA := by decide +kernel

theorem test_crc_absorb_v1 :
    (next (exec (.crcAbsorbV1 0x22) { inV1 with crc := 0xF3C1 })).map (fun t => (t.crc, t.crcPar)) =
      some (0x1A5C, false) := by decide

theorem test_crc_absorb_v2 :
    (next (exec (.crcAbsorbV2 0xAA) { inV2 with crc := 0x6FBA })).map
        (fun t => (t.crc, t.crcPar, t.crcHold)) = some (0x6FBA, true, 0xAA) ∧
      (next (exec (.crcAbsorbV2 0x55) { inV2 with crc := 0x6FBA, crcPar := true, crcHold := 0xAA })).map
        (fun t => (t.crc, t.crcPar)) = some (0xF86F, false) := by decide +kernel

theorem test_crc_result :
    (next (exec .crcResult { inV2 with crc := 0xF86F })).map (fun t => (t.result, t.crc)) =
      some (.crc 0xF86F, 0xF86F) := by decide

/-- 44 R154 examples: V2, and the V1 mismatch of program P5. -/
theorem test_crc_rxcheck :
    (next (exec (.crcRxcheck 0xF8) { inV2 with crc := 0xF86F, crcB1 := 0x6F })).map (·.result) =
        some (.rxCheck 0xF86F false) ∧
      (next (exec (.crcRxcheck 0xDB) { inV1 with crc := 0xDDDA, crcB1 := 0xDD })).map (·.result) =
        some (.rxCheck 0xDDDB true) := by decide

/-- A2, A3. -/
theorem test_ackpol_v2 :
    (next (exec (.ackpolV2 0x10 0x02) { inV2 with ackEn := true, ackValue := 0x5A })).map (·.result) =
        some (.ackPolicy true 0x5A) ∧
      (next (exec (.ackpolV2 0x10 0x02)
        { inV2 with ackEn := true, ackValue := 0x5A, nodeAck := [(0x10, 2)] })).map (·.result) =
        some (.ackPolicy false 0x5A) := by decide

/-- A8, A10. -/
theorem test_ackpol_v1 :
    (next (exec (.ackpolV1 0x15 0x00) { inV1 with nodeAck := [(5, 3)] })).map (·.result) =
        some (.ackPolicy true 0x7E) ∧
      (next (exec (.ackpolV1 0x17 0x00) { inV1 with ackEn := true })).map (·.result) =
        some (.ackPolicy false 0x7E) := by decide

/-- A13. -/
theorem test_ackpol_v1x :
    (next (exec (.ackpolV1x 0xFD 0x00) { inV1x with ackEn := true, ackValue := 0x5A, nodeAck := [(63, 1)] })).map
      (·.result) = some (.ackPolicy true 0x7E) := by decide

theorem test_ack_enabled :
    (next (exec (.ackEnabled 0x10) { inV2 with ackEn := true, nodeAck := [(0x10, 2)] })).map (·.result) =
      some (.enabled false) := by decide

/-! Host actions, the table and the fetch. -/

theorem test_write_ignored_F32 : (hostAct (.writeAckEn true) inV2).ackEn = false := by decide

theorem test_node_table_write_and_erase :
    Memory.write (Memory.write [] 5 3) 2 2 = [(2, 2), (5, 3)] ∧ Memory.write [(2, 2), (5, 3)] 5 0 = [(2, 2)] := by
  decide

theorem test_fetch_state_word :
    (next (step (State.reset.withFetchWord 8 6))).map (fun t => t.sink.getLast?) =
      some (some (.emitFrame
        { state := .dataByte, rawValue := 0x00, sequenceIndex := 1, startPos := 2, endPos := 21,
          flags := Flags.empty })) := by decide +kernel

theorem test_fetch_header_word :
    (next (step (State.reset.withFetchWord 24 0x21022))).map (fun t => (t.id1, t.id2, t.bodyLen, t.state)) =
      some (0x10, 0x22, 2, .dataByte) := by decide +kernel

/-! Cases that meet the hypotheses of the statements, clause by clause at the boundaries. -/

/-- `ResetTableAndStart`, `StartBeginsSession`: the smallest legal bit period; both illegal cases; RUN and DONE. -/
theorem witness_start :
    ({ State.reset with spb := 2 } : State).mode = .idle ∧ ({ State.reset with spb := 2 } : State).protocol ≠ none ∧
      2 ≤ ({ State.reset with spb := 2 } : State).spb ∧
      ({ State.reset with version := 3, spb := 8 } : State).mode = .idle ∧
      ({ State.reset with version := 3, spb := 8 } : State).protocol = none ∧
      ({ State.reset with spb := 1 } : State).mode = .idle ∧ ({ State.reset with spb := 1 } : State).spb < 2 ∧
      inV2.mode ≠ .idle ∧ ({ inV2 with mode := .done } : State).mode ≠ .idle := by decide

theorem witness_reset_request : ({ inV2 with inbox := [.reset] } : State).inbox = .reset :: [] := rfl

theorem witness_cancel_poll :
    ({ inV2 with cancel := true } : State).mode = .run ∧ ({ inV2 with cancel := true } : State).cancel = true ∧
      ({ inV2 with cancel := true } : State).waiting = false ∧
      ({ inV2 with mode := .done } : State).mode = .done := by decide

/-- `ExhaustionEndsOrWaits`: an ended and a live stream, without and with a CANCEL while the operation waits. -/
theorem witness_exhaustion :
    inV2.mode = .run ∧ inV2.cancel = false ∧ inV2.protocol ≠ none ∧ 2 ≤ inV2.spb ∧
      wireUnit (on inV2 [true, true]) = none ∧ (on inV2 [true, true]).streamEnded = true ∧
      wireUnit { inV2 with samples := [true, true] } = none ∧
      ({ inV2 with samples := [true, true] } : State).streamEnded = false ∧
      ({ inV2 with samples := [true, true], waiting := true, cancel := true } : State).waiting = true ∧
      wireUnit { inV2 with samples := [true, true], waiting := true, cancel := true } = none := by decide

/-- `IterConsumesPendingBreak`: both states, without and with a CANCEL while an operation waits. -/
theorem witness_pending_break :
    State.reset.mode ≠ .run ∧ ({ inV2 with pendingBreak := true } : State).mode = .run ∧
      ({ inV2 with pendingBreak := true } : State).cancel = false ∧
      ({ inV2 with pendingBreak := true } : State).state = .noFrame ∧
      ({ inV2 with pendingBreak := true, state := .headerBreak } : State).state = .headerBreak ∧
      ({ inV2 with pendingBreak := true, cancel := true, waiting := true } : State).waiting = true := by decide

/-- `StepRunsDecodedUnit`: a step with a byte unit, a step with a break unit and a step with a break field. -/
theorem witness_decoded_units :
    (on { inV2 with state := .dataByte } (runs true [10, 8, 90])).mode = .run ∧
      (on { inV2 with state := .dataByte } (runs true [10, 8, 90])).cancel = false ∧
      (on { inV2 with state := .dataByte } (runs true [10, 8, 90])).inbox = [] ∧
      (wireUnit (on { inV2 with state := .dataByte } (runs true [10, 8, 90]))).map (·.1) =
        some (.byte ⟨0xFF, 10, 86, false⟩) ∧
      (wireUnit (on inV2 (runs true [8, 84, 30, 6]))).map (·.1) = some (.brk (breakAt 8 104 11)) ∧
      (wireUnit (on { inV2 with state := .ackByte } (runs true [10, 85, 16, 8]))).map (·.1) =
        some (.breakField ⟨10, 99, 11, false⟩) := by decide +kernel

/-- A step: whether the wire side delivers a unit, the next state, the latch, and the kinds of the calls that are
no markers (30 R72). -/
def row (s : State) : Option (Bool × FrameState × Bool × List (BitVec 3)) :=
  (next (exec .iter s)).map fun t =>
    ((wireUnit s).isSome, t.state, t.pendingBreak, (decodeCalls t.sink).map SinkCall.kind)

/-- The step of a V2 session that reads one byte frame. -/
def rowAt (s : State) (value : Byte) : Option (Bool × FrameState × Bool × List (BitVec 3)) :=
  row (on s (waveform cfg .v2 8 [.idle 1, .byte value true]))

/-- `TransitionTable`, rows of 42 R130 with a break: a scan, a latched break, and the other state of the row. -/
theorem witness_rows_break :
    row (on { inV2 with spb := 2 } (runs true [1, 21, 3, 1])) = some (true, .headerId1, false, [1, 0]) ∧
      row { inV2 with pendingBreak := true } = some (true, .headerId1, false, [1, 0]) ∧
      row { inV2 with pendingBreak := true, state := .headerBreak } = some (true, .headerId1, false, [1, 0]) := by
  decide +kernel

/-- Rows of the header and the instruction bytes. -/
theorem witness_rows_header :
    [rowAt { inV2 with state := .headerId1 } 0x10, rowAt { inV2 with state := .headerId2 } 0x01,
      rowAt { inV2 with state := .headerId2 } 0x22, rowAt { inV2 with state := .headerId2 } 0x20,
      rowAt { inV2 with state := .instructionByte1 } 0xA5,
      rowAt { inV2 with state := .instructionByte2, bodyLen := 4 } 0xC3,
      rowAt { inV2 with state := .instructionByte2 } 0xC3] =
    [some (true, .headerId2, false, [0]), some (true, .instructionByte1, false, [0]),
      some (true, .dataByte, false, [0]), some (true, .crcByte1, false, [0]),
      some (true, .instructionByte2, false, [0]), some (true, .dataByte, false, [0]),
      some (true, .crcByte1, false, [0])] := by decide +kernel

/-- Rows of the data, CRC and ACK bytes, and of a break field in the first and the last byte state. -/
theorem witness_rows_body :
    [rowAt { inV2 with state := .dataByte, bodyLen := 2, remaining := 2 } 0xAA,
      rowAt { inV2 with state := .dataByte, bodyLen := 2, remaining := 1 } 0x55,
      rowAt { inV2 with state := .crcByte1 } 0x6F,
      rowAt { inV2 with state := .crcByte2, id1 := 0x10, id2 := 0x02, ackEn := true } 0xF8,
      rowAt { inV2 with state := .crcByte2, id1 := 0x10, id2 := 0x22, ackEn := true } 0xF8,
      rowAt { inV2 with state := .ackByte } 0x7E,
      row (on { inV2 with state := .headerId1 } (runs true [10, 85, 16, 8])),
      row (on { inV2 with state := .ackByte } (runs true [10, 85, 16, 8]))] =
    [some (true, .dataByte, false, [0]), some (true, .crcByte1, false, [0]), some (true, .crcByte2, false, [0]),
      some (true, .ackByte, false, [0]), some (true, .noFrame, false, [0, 1]), some (true, .noFrame, false, [0, 1]),
      some (true, .noFrame, true, [2, 4]), some (true, .noFrame, true, [2, 4])] := by decide +kernel

theorem witness_step_actions :
    State.reset.inbox = [] ∧ ({ State.reset with inbox := [.turn] } : State).inbox = .turn :: [] ∧
      ({ State.reset with inbox := [.start] } : State).inbox = .start :: [] ∧
      ({ State.reset with inbox := [.cancel] } : State).inbox = .cancel :: [] ∧
      HostReq.cancel ≠ .turn ∧ HostReq.cancel ≠ .start := by decide

theorem witness_break_values :
    (breakAt 8 103 11).value = 0x00 ∧ ({ breakAt 8 103 11 with value := 0xFF } : BreakRec).value ≠ 0x00 := by
  decide

/-- The state-step statements and `CrcResetResultCheck`: each version; `LengthDispatchAgreesWithRows`: each code. -/
theorem witness_versions :
    inV1.protocol = some .v1 ∧ inV1x.protocol = some .v1Extended ∧ inV2.protocol = some .v2 ∧
      Version.ofCode inV2.config 0 = some .v1 ∧ Version.ofCode inV2.config 2 = some .v2 ∧
      Version.ofCode inV2.config 3 = none := by decide

/-- The body counts at both ends of their range. -/
theorem witness_data_counts :
    ({ inV2 with remaining := 1, bodyLen := 1 } : State).protocol = some .v2 ∧
      1 ≤ ({ inV2 with remaining := 1, bodyLen := 1 } : State).remaining.toNat ∧
      ({ inV2 with remaining := 1, bodyLen := 1 } : State).remaining.toNat ≤
        ({ inV2 with remaining := 1, bodyLen := 1 } : State).bodyLen.toNat ∧
      1 ≤ ({ inV2 with remaining := 128, bodyLen := 128 } : State).remaining.toNat ∧
      ({ inV2 with remaining := 128, bodyLen := 128 } : State).remaining.toNat ≤
        ({ inV2 with remaining := 128, bodyLen := 128 } : State).bodyLen.toNat := by decide

theorem witness_ack_expected_or_not :
    expectAck { inV2 with ackEn := true } .v2 0x10 0x02 = true ∧
      expectAck { inV2 with ackEn := true } .v2 0x10 0x22 = false ∧
      expectAck { inV1 with ackEn := true } .v1 0x15 0x00 = true ∧
      expectAck { inV1 with ackEn := true } .v1 0x17 0x00 = false := by decide

theorem witness_missing_byte_next : inV2.mode = .run ∧ inV2.cancel = false := by decide

theorem witness_function_select :
    (0x00 : Byte).getLsbD cfg.v1FselBit = false ∧ (0x01 : Byte).getLsbD cfg.v1FselBit = true := by decide

theorem witness_crc_phase :
    inV2.crcPar = false ∧ ({ inV2 with crcPar := true } : State).crcPar = true ∧
      ([0x10, 0x22] : List Byte).length % 2 = 0 ∧ cfg.crcPoly.getLsbD 0 = true := by decide

theorem witness_ack_value_ignored :
    inV1.protocol ≠ some .v2 ∧ ∀ id1 id2, Instr.ackpolV1 0x15 0x00 ≠ .ackpolV2 id1 id2 :=
  ⟨by decide, fun _ _ h => by cases h⟩

theorem witness_tables :
    Memory.wf 256 [(2, 2), (255, 3)] = true ∧ Memory.wf 256 [(2, 2)] = true ∧ 256 ≤ 256 ∧
      ∀ a : Byte, nodeEntry [(2, 2)] a = nodeEntry (Memory.write [] 2 2) a :=
  ⟨by decide, by decide, by decide, fun _ => rfl⟩

/-- `ControlWritesOnlyInIdle`: the three modes, and an entry inside and one outside a table of 64 entries. -/
theorem witness_write_modes :
    State.reset.mode = .idle ∧ inV2.mode = .run ∧ ({ inV2 with mode := .done } : State).mode = .done ∧
      (63 : Byte).toNat < (State.resetWith { cfg with nodeAckSize := 64 }).config.nodeAckSize ∧
      (State.resetWith { cfg with nodeAckSize := 64 }).config.nodeAckSize ≤ (64 : Byte).toNat ∧
      (State.resetWith { cfg with nodeAckSize := 64 }).mode = .idle := by decide

/-- `HostReadsByMode`: a latched break in DONE and in IDLE, none, and RUN. -/
theorem witness_read_modes :
    ({ inV2 with mode := .done, pendingBreak := true } : State).mode = .done ∧
      ({ inV2 with mode := .done, pendingBreak := true } : State).pendingBreak = true ∧
      ({ State.reset with pendingBreak := true } : State).mode = .idle ∧
      ({ State.reset with pendingBreak := true } : State).pendingBreak = true ∧
      State.reset.mode = .idle ∧ State.reset.pendingBreak = false ∧ inV2.mode = .run := by decide

/-- 20 R58: in RUN the control registers answer and the data registers do not; in DONE a latched break answers. -/
theorem test_host_reads :
    [HostReg.version, .spb, .ackEn, .ackValue, .nodeAck 5, .statusMode].map
        (hostRead · { inV2 with nodeAck := [(5, 3)] }) = [some 2, some 8, some 0, some 0x7E, some 3, some 1] ∧
      hostRead .pbStart { inV2 with pendingBreak := true, pbStart := 440 } = none ∧
      hostRead .pbStart { inV2 with mode := .done, pendingBreak := true, pbStart := 440 } = some 440 ∧
      hostRead .pbStart { inV2 with mode := .done, pbStart := 440 } = none := by decide

/-- Steps and operations that answer a next state, in RUN and with `CTRL.CANCEL` pending. -/
theorem witness_next_states :
    (next (step { inV2 with cancel := true })).isSome = true ∧ inV2.mode = .run ∧ inV2.mode ≠ .idle ∧
      ({ inV2 with cancel := true } : State).nextIsReset = false ∧
      (next (exec (.stCrc1 (byteAt 0x6F)) inV2)).isSome = true ∧ Instr.stCrc1 (byteAt 0x6F) ≠ .sessionStart := by
  decide

theorem witness_well_formed :
    Instr.wellFormed inV2.config (.stData (byteAt 0xFF)) = true ∧ inV2.protocol ≠ none ∧ 2 ≤ inV2.spb := by decide

theorem witness_reserved :
    ({ inV2 with version := 3 } : State).protocol = none ∧ ({ inV2 with spb := 1 } : State).spb < 2 ∧
      ({ inV2 with spb := 1 } : State).protocol ≠ none := by decide

theorem witness_rounding : 0 < 1 ∧ 1 ≤ 1 ∧ 1 ≤ rnd 1 1 ∧ cfg.halfDivisor = 2 := by decide

/-- `BreakScanFindsBreak`: the shortest low run that is eleven bits at two samples a bit, with the shortest stop bit,
on a high and on a low line. -/
theorem witness_break_scan (g : Nat) :
    (on { inV2 with spb := 2 } (line g false ++ line 1 true ++ [] ++ line 21 false ++ true :: [true, true, false])).samples.drop
        (on { inV2 with spb := 2 } []).pos =
      line g false ++ line 1 true ++ [] ++ line 21 false ++ true :: [true, true, false] ∧
    ({ inV2 with spb := 2 } : State).protocol = some .v2 ∧ inV2.config.halfDivisor = 2 ∧
    cfg.minBrk.get .v2 ≤ rnd 2 21 ∧ ¬ cfg.minBrk.get .v2 ≤ rnd 2 20 ∧
    (∀ q, q < 1 → (runs true [1, 21, 3, 1])[1 + half cfg 2 + rnd 2 21 * 2 + q]? = some true) ∧
    (runs true [1, 21, 3, 1])[1 + half cfg 2 + rnd 2 21 * 2 + 1]? = some false :=
  ⟨rfl, by decide, by decide, by decide, by decide, by decide +kernel, by decide +kernel⟩

/-- Two low runs passed over: vector S3 (S4, S6 and S8 differ in the first run's length and in the version). -/
theorem witness_break_scan_passed :
    let passed := [(83, 16), (8, 16)]
    let wave := runs true [8, 83, 16, 8, 16, 120, 40, 8, 8]
    (∀ r ∈ passed, 1 ≤ r.1 ∧ 1 ≤ r.2 ∧ rnd 8 r.1 < cfg.minBrk.get .v2) ∧ cfg.minBrk.get .v2 ≤ rnd 8 120 ∧
    wave = line 0 false ++ line 8 true ++
      passed.flatMap (fun r => line r.1 false ++ line r.2 true) ++ line 120 false ++
      true :: runs true [39, 8, 8] ∧
    (∀ q, q < 36 → wave[131 + half cfg 8 + rnd 8 120 * 8 + q]? = some true) ∧
    wave[131 + half cfg 8 + rnd 8 120 * 8 + 36]? = some false ∧
    rnd 8 84 < cfg.minBrk.get .v1 ∧ rnd 8 99 < cfg.minBrk.get .v1 := by decide +kernel

/-- A stop bit that reads low: vectors S13 and S18. -/
theorem witness_break_scan_low_stop :
    let s13 := runs true [8, 88, 2, 6, 50]
    let s18 := waveform cfg .v2 8 [.idle 1, .low 11, .idles 2, .byte 0x10 true, .idle 3]
    s13 = line 0 false ++ line 8 true ++ [] ++ line 88 false ++ true :: runs true [1, 6, 50] ∧
    (∀ q, q < 4 → s13[8 + half cfg 8 + rnd 8 88 * 8 + q]? = some false) ∧
    s13[8 + half cfg 8 + rnd 8 88 * 8 + 4]? = some true ∧
    s18 = line 0 false ++ line 8 true ++ [] ++ line 88 false ++ true :: s18.drop 97 ∧
    (∀ q, q < 38 → s18[8 + half cfg 8 + rnd 8 88 * 8 + q]? = some false) ∧
    s18[8 + half cfg 8 + rnd 8 88 * 8 + 38]? = some true := by decide +kernel

/-- `BreakScanReturnsValidBreak` and `LaterSamplesChangeNothing`. -/
theorem witness_scan_returns :
    brkScan cfg (runs true [1, 21, 3, 1]) 2 .v2 ⟨0, []⟩ =
      .done { breakAt 1 24 11 with endPos := 24 }
        ⟨24, ((List.range 10).map fun i => .emitMarker (2 + i * 2) .bitZero) ++
          [.emitMarker 22 .bitOne, .emitMarker 24 .stopBit]⟩ := by decide +kernel

theorem witness_byte_read (g : Nat) :
    (on { inV1 with spb := 2 } (line g false ++ line 1 true ++ byteWave cfg .v1 2 0x96 true ++ [])).samples.drop
        (on { inV1 with spb := 2 } []).pos =
      line g false ++ line 1 true ++ byteWave cfg .v1 2 0x96 true ++ [] ∧
    ({ inV1 with spb := 2 } : State).protocol = some .v1 ∧ inV1.config.halfDivisor = 2 ∧
    2 ≤ ({ inV1 with spb := 2 } : State).spb := ⟨rfl, by decide, by decide, by decide⟩

/-- `LongLowIsBreakFieldOrError`: a line low at the cursor or not; low runs on both sides of condition (b), high runs
on both sides of condition (c), at two samples a bit. -/
theorem witness_long_low (g d u : Nat) :
    (on { inV2 with spb := 2 } (line g false ++ line 1 true ++ line d false ++ line u true ++ [false])).samples.drop
        (on { inV2 with spb := 2 } []).pos =
      line g false ++ line 1 true ++ line d false ++ line u true ++ false :: [] ∧
    half cfg 2 + 9 * 2 < 20 ∧ half cfg 2 + (9 + cfg.xExtra.get .v2) * 2 < 22 ∧
    21 ≤ half cfg 2 + (9 + cfg.xExtra.get .v2) * 2 ∧ half cfg 2 < 2 ∧ 1 ≤ half cfg 2 :=
  ⟨rfl, by decide, by decide, by decide, by decide, by decide⟩

theorem witness_low_stop (g : Nat) :
    (on { inV2 with spb := 2 }
        (line g false ++ line 1 true ++ byteWave cfg .v2 2 0x01 false ++ line 0 false ++ [true])).samples.drop
        (on { inV2 with spb := 2 } []).pos =
      line g false ++ line 1 true ++ byteWave cfg .v2 2 0x01 false ++ line 0 false ++ true :: [] ∧
    (0x01 : Byte) ≠ 0x00 := ⟨rfl, by decide⟩

/-- The outcome of a read, with the cursor's position. -/
def readOf (w : Wire ReadResult) : Option (ReadResult × Nat) :=
  match w with
  | .done r c => some (r, c.pos)
  | .exhausted _ => none

/-- The outcomes of BYTE_READ: B1's high stop bit, B13, B15 and B12; and B12's low run after a resynchronisation, a
break field with `ferr` (41 R100 corner case 6, 60 R180 item 5). -/
theorem witness_read_outcomes :
    readOf (byteRead cfg (waveform cfg .v2 8 [.idle 2, .byte 0x1D true]) 8 .v2 ⟨0, []⟩) =
        some (.byte ⟨0x1D, 16, 92, false⟩, 92) ∧
      readOf (byteRead cfg (runs true [10, 84, 16, 8]) 8 .v2 ⟨0, []⟩) = some (.byte ⟨0x00, 10, 86, true⟩, 86) ∧
      readOf (byteRead cfg (runs true [10, 88, 4, 8]) 8 .v2 ⟨0, []⟩) = some (.byte ⟨0x00, 10, 98, true⟩, 98) ∧
      readOf (byteRead cfg (runs true [10, 85, 16, 8]) 8 .v2 ⟨0, []⟩) =
        some (.breakField ⟨10, 99, 11, false⟩, 99) ∧
      readOf (byteRead cfg (runs false [6, 4, 85, 16, 8]) 8 .v2 ⟨0, []⟩) =
        some (.breakField ⟨10, 99, 11, true⟩, 99) := by
  decide +kernel

/-- B4: the frame of 0x1D in V2 reads as 0xB8 in V1. -/
theorem witness_bit_orders :
    readOf (byteRead cfg (waveform cfg .v2 8 [.idle 2, .byte 0x1D true]) 8 .v1 ⟨0, []⟩) =
        some (.byte ⟨0xB8, 16, 92, false⟩, 92) ∧
      (waveform cfg .v2 8 [.idle 2, .byte 0x1D true])[16 + half cfg 8 + 9 * 8]? = some true ∧
      (0xB8 : Byte).reverse = 0x1D ∧ cfg.lsbFirst.get .v2 = !cfg.lsbFirst.get .v1 := by decide +kernel

/-- A session in the middle of a packet: two data bytes, the second to come. -/
def midPacket : State :=
  { inV2 with
    state := .dataByte, id1 := 0x10, id2 := 0x22, bodyLen := 2, remaining := 1, crc := 0x6FBA, crcPar := true
    crcHold := 0xAA, pos := 10, lastEnd := 4, nodeAck := [(5, 3)]
    sink := [.commit, unit .headerBreak 0x00 0 0 1 Flags.empty, unit .headerId1 0x10 0 1 2 Flags.empty,
      unit .headerId2 0x22 0 2 3 Flags.empty, unit .dataByte 0xAA 1 3 4 Flags.empty] }

theorem witness_session_invariant : SessionInv midPacket where
  table := by decide
  spbFits := by decide
  legal := by decide
  resting := by decide
  pending := by decide
  length := by decide
  counted := by decide
  fresh := by decide
  dataLeft := by decide
  instrOnlyV2 := by decide
  evenBody := by decide
  pairing := by
    intro _ _ _ _ b hb
    have h : pairPhase midPacket = some true := by decide
    rw [h] at hb
    cases hb
    rfl
  unpaired := by
    intro _ v hv hp
    have h : midPacket.protocol = some .v2 := by decide
    rw [h] at hv
    cases hv
    exact absurd hp (by decide)
  behind := by decide
  pendingBehind := by decide
  pendingOrdered := by decide

theorem witness_sound_units : UnitsSound midPacket.sink := by
  intro u hu
  simp only [midPacket, unit, List.mem_cons, SinkCall.emitFrame.injEq, List.not_mem_nil, or_false,
    reduceCtorEq, false_or] at hu
  rcases hu with rfl | rfl | rfl | rfl <;> exact ⟨by decide, by decide, by decide, by decide, by decide,
    by decide, by decide⟩

theorem witness_packet_invariant : PacketInv midPacket ∧ midPacket.nextIsReset = false :=
  ⟨⟨by decide, by decide⟩, by decide⟩

theorem witness_step_from_mid_packet : (next (step midPacket)).isSome = true := by decide

/-- `BuiltPacketsDecodeCleanly`: the smallest V2 packet, two samples a bit, direction bit set. -/
theorem witness_built_packet :
    (on { inV2 with spb := 2 } (line 1 true ++ waveform cfg .v2 2 (pktV2 cfg 0x10 0x20 []) ++ [])).samples.drop
        (on { inV2 with spb := 2 } []).pos = line 1 true ++ waveform cfg .v2 2 (pktV2 cfg 0x10 0x20 []) ++ [] ∧
    ([] : List Byte).length = len cfg .v2 0x10 0x20 ∧
      (none : Option (Byte × Byte)).isSome = (0x20 : Byte).getLsbD 0 ∧ inV2.config = cfg ∧
      inV2.protocol = some .v2 ∧ inV2.state = .noFrame ∧ inV2.pendingBreak = false ∧ inV2.cancel = false ∧
      inV2.mode = .run :=
  ⟨rfl, by decide, by decide, by decide, by decide, by decide, by decide, by decide, by decide⟩

/-- A packet with instruction bytes, PKT.V2I, and one of V1. -/
theorem witness_built_packet_instr :
    (on { inV2 with spb := 2 }
        (line 1 true ++ waveform cfg .v2 2 (pktV2I cfg 0x10 0x21 0xA5 0xC3 []) ++ [])).samples.drop
        (on { inV2 with spb := 2 } []).pos =
      line 1 true ++ waveform cfg .v2 2 (pktV2I cfg 0x10 0x21 0xA5 0xC3 []) ++ [] ∧
    ([] : List Byte).length = len cfg .v2 0x10 0x21 ∧
      (some ((0xA5 : Byte), (0xC3 : Byte))).isSome = (0x21 : Byte).getLsbD 0 ∧
      ([] : List Byte).length = len cfg .v1 0x0E 0x00 ∧ inV1.protocol = some .v1 ∧ inV1.config = cfg :=
  ⟨rfl, by decide, by decide, by decide, by decide, by decide⟩

theorem witness_encodings :
    cfg.codesDistinct ∧ Instr.wellFormed cfg (.lenV2F0C1 2 0x10 0x22) = true ∧
      encode cfg (.lenV2F0C1 2 0x10 0x22) = some (.header 0b10_00010000_00100010) ∧
      Instr.wellFormed cfg (.instrV2 0x33 0x01) = true ∧
      encode cfg (.instrV2 0x33 0x01) = some (.instrBit 0b10_00110011_00000001) ∧
      encode cfg (.stData zeroByte) = some (.state 0b0110 (.byte zeroByte)) ∧
      (∀ f, Selector.header 0b10_00010000_00100010 ≠ .frame f) ∧
      ∀ w f, Selector.header 0b10_00010000_00100010 ≠ .state w (.breakField f) :=
  ⟨⟨by decide, by decide, by decide⟩, by decide, rfl, by decide, rfl, rfl, fun _ => nofun, fun _ _ => nofun⟩

end Sys2Proof.Tests
end

section
/-! PROOFS, family 00_scope.md: the parameter values of 00 R5. -/

namespace Sys2Proof

/-- A per-version table read off row by row, in the order of 00 R2. -/
theorem PerVersion.map_get {α : Type} (t : PerVersion α) :
    [Version.v1, .v1Extended, .v2].map t.get = [t.v1, t.v1Extended, t.v2] := rfl

namespace Machine

@[simp] theorem State.resetWith_config (p : Config) : (State.resetWith p).config = p := rfl

theorem State.reset_config : State.reset.config = cfg := State.resetWith_config cfg

theorem cfg_codesDistinct : cfg.codesDistinct := ⟨by decide, by decide, by decide⟩

/-- 10 R21 at the codes of 00 R5: each version's own code names it, and the one code left over names none. -/
theorem map_ofCode_cfg :
    [0, 1, 2, 3].map (Version.ofCode cfg) = [some .v1, some .v1Extended, some .v2, none] := by
  have named := Version.ofCode_code cfg_codesDistinct
  have hv1 : Version.ofCode cfg 0 = some .v1 := named .v1
  have hv1Extended : Version.ofCode cfg 1 = some .v1Extended := named .v1Extended
  have hv2 : Version.ofCode cfg 2 = some .v2 := named .v2
  have reserved : Version.ofCode cfg 3 = none := Version.ofCode_cfg_eq_none.mpr rfl
  simp only [List.map_cons, List.map_nil, hv1, hv1Extended, hv2, reserved]

/-- `HALF` at the divisor of 00 R5. -/
theorem half_cfg (spb : Nat) : half cfg spb = spb / 2 := rfl

/-- Settles O60: the machine's reset carries `cfg`, whose per-version tables are read off row by row, whose version
codes name what `map_ofCode_cfg` says, and whose other fields are the constants of 00 R5. -/
theorem parameterValues : Obligations.ParameterValues := by
  unfold Obligations.ParameterValues
  simp only [PerVersion.map_get]
  exact ⟨State.reset_config, rfl, rfl, rfl, rfl, rfl, rfl, rfl, half_cfg, rfl, map_ofCode_cfg,
    rfl, rfl, rfl, rfl, rfl, rfl, rfl, rfl, rfl, rfl, rfl, rfl⟩

end Machine

end Sys2Proof
end

section
/-! PROOFS, family 10_state.md: what one step of the framer can do, and what it keeps. -/

namespace Sys2Proof.Machine

/-! What a step of the sequencer can be (42 R110). -/

/-- The state step of a byte state performed on the byte read: one case for each state that consumes a byte. -/
inductive ByteStep (r : ByteRec) (s t : State) : Prop
  | headerId1 (hs : s.state = .headerId1) (h : execStHeaderid1 r s = .next t)
  | headerId2 (hs : s.state = .headerId2) (h : execStHeaderid2 r s = .next t)
  | instr1 (hs : s.state = .instructionByte1) (h : execStInstr1 r s = .next t)
  | instr2 (hs : s.state = .instructionByte2) (h : execStInstr2 r s = .next t)
  | data (hs : s.state = .dataByte) (h : execStData r s = .next t)
  | crc1 (hs : s.state = .crcByte1) (h : execStCrc1 r s = .next t)
  | crc2 (hs : s.state = .crcByte2) (h : execStCrc2 r s = .next t)
  | ack (hs : s.state = .ackByte) (h : execStAck r s = .next t)

/-- One unit of the sequencer: the wire operation starves, or a break, a break field or a byte is consumed. -/
inductive UnitStep (s t : State) : Prop
  | starved (c : Cursor) (hc : s.cursor.Forward c) (ht : t = s.starve c)
  | pendingBreak (hs : s.state = .noFrame ∨ s.state = .headerBreak) (hp : s.pendingBreak = true)
      (ht : t = s.clearPending.acceptBreak s.pendingRec)
  | scannedBreak (hs : s.state = .noFrame ∨ s.state = .headerBreak) (hp : s.pendingBreak = false)
      (u : BreakRec) (c : Cursor) (hc : s.cursor.Forward c) (hv : u.value = 0x00) (hend : u.endPos = c.pos)
      (hle : u.startPos ≤ u.endPos) (ht : t = (s.atCursor c).acceptBreak u)
  | missingByte (f : BreakFieldRec) (c : Cursor) (hc : s.cursor.Forward c) (hend : f.endPos = c.pos)
      (hle : f.startPos ≤ f.endPos) (ht : t = (s.atCursor c).enterMissingByte f)
  | byte (r : ByteRec) (c : Cursor) (hc : s.cursor.Forward c) (hend : r.endPos = c.pos)
      (hle : r.startPos ≤ r.endPos) (h : ByteStep r (s.atCursor c) t)

/-- A wire operation that completed moved the cursor forward. -/
theorem Wire.Forward.of_done {α : Type} {w : Wire α} {a : α} {c c' : Cursor} (h : w.Forward c)
    (hw : w = .done a c') : c.Forward c' := by subst hw; exact h

/-- So did one that ran out of samples. -/
theorem Wire.Forward.of_exhausted {α : Type} {w : Wire α} {c c' : Cursor} (h : w.Forward c)
    (hw : w = .exhausted c') : c.Forward c' := by subst hw; exact h

/-- A state that consumes a break. -/
theorem UnitStep.of_withBreak {s t : State} (hs : s.state = .noFrame ∨ s.state = .headerBreak)
    (h : s.withBreak execStNoframe = .next t) : UnitStep s t := by
  rcases withBreak_next h with ⟨hp, h⟩ | ⟨hp, v, -, -, ⟨u, c, hw, h⟩ | ⟨c, hw, ht⟩⟩
  · cases h
    exact .pendingBreak hs hp rfl
  · cases h
    obtain ⟨hv, hend, -, hle⟩ := brkScan_eq_done hw
    exact .scannedBreak hs hp u c ((brkScan_forward _ _ _ _ _).of_done hw) hv hend hle rfl
  · exact .starved c ((brkScan_forward _ _ _ _ _).of_exhausted hw) ht

/-- A state that consumes a byte. -/
theorem UnitStep.of_withByte {s t : State} {k : ByteRec → State → Outcome} (h : s.withByte k = .next t)
    (hk : ∀ r c, k r (s.atCursor c) = .next t → ByteStep r (s.atCursor c) t) : UnitStep s t := by
  obtain ⟨v, -, -, ⟨r, c, hw, h⟩ | ⟨f, c, hw, ht⟩ | ⟨c, hw, ht⟩⟩ := withByte_next h
  · obtain ⟨hend, -, hle⟩ := byteRead_eq_done hw
    exact .byte r c ((byteRead_forward _ _ _ _ _).of_done hw) hend hle (hk r c h)
  · obtain ⟨hend, -, hle⟩ := byteRead_eq_done hw
    exact .missingByte f c ((byteRead_forward _ _ _ _ _).of_done hw) hend hle ht
  · exact .starved c ((byteRead_forward _ _ _ _ _).of_exhausted hw) ht

/-- What the unit of a decode-unit step can be, by the state it starts from (42 R110, 30 R70). -/
theorem unitStep_next {s t : State} (h : unitStep s = .next t) : UnitStep s t := by
  unfold unitStep at h
  cases hs : s.state <;> rw [hs] at h
  case noFrame => exact .of_withBreak (.inl hs) h
  case headerBreak => exact .of_withBreak (.inr hs) h
  case headerId1 => exact .of_withByte h fun _ _ => .headerId1 hs
  case headerId2 => exact .of_withByte h fun _ _ => .headerId2 hs
  case instructionByte1 => exact .of_withByte h fun _ _ => .instr1 hs
  case instructionByte2 => exact .of_withByte h fun _ _ => .instr2 hs
  case dataByte => exact .of_withByte h fun _ _ => .data hs
  case crcByte1 => exact .of_withByte h fun _ _ => .crc1 hs
  case crcByte2 => exact .of_withByte h fun _ _ => .crc2 hs
  case ackByte => exact .of_withByte h fun _ _ => .ack hs

/-- What SESSION.START can answer: the session begins from IDLE under a legal configuration, or nothing changes. -/
theorem execSessionStart_next {s t : State} (h : execSessionStart s = .next t) :
    (s.mode = .idle ∧ s.legalConfig = true ∧ t = s.beginSession) ∨ t = s := by
  unfold execSessionStart at h
  cases hm : s.mode <;> simp only [hm] at h
  case idle =>
    split at h
    · cases h; exact .inl ⟨rfl, ‹_›, rfl⟩
    · cases h; exact .inr rfl
  case run => cases h; exact .inr rfl
  case done => cases h; exact .inr rfl

/-- The byte states are neither of the two that consume a break. -/
theorem ByteStep.state_ne {r : ByteRec} {s t : State} (h : ByteStep r s t) :
    s.state ≠ .noFrame ∧ s.state ≠ .headerBreak := by
  cases h <;> simp [*]

/-! The sink calls of the state steps (42 R123, R125, R130). -/

/-- The unit that the step of a byte state builds from the byte read (42 R122, R125, 60 R178). -/
structure UnitFor (s : State) (r : ByteRec) (u : FrameUnit) : Prop where
  state : u.state = s.state
  allowed : u.flags.allowed u.state = true
  notExpected : u.flags.headerBreakExpected = false
  index : u.sequenceIndex = if s.state = .dataByte then s.bodyLen - (s.remaining - 1) else 0
  starts : u.startPos = r.startPos
  ends : u.endPos = r.endPos

/-- The calls of the step of a byte state: the unit, and a commit where the packet ends with it. -/
inductive ByteCalls (r : ByteRec) (s t : State) : Prop
  | within (u : FrameUnit) (hu : UnitFor s r u) (hsink : t.sink = s.sink ++ [.emitFrame u])
      (hnext : mayPrecede s.state t.state = true)
  | last (u : FrameUnit) (hu : UnitFor s r u) (hsink : t.sink = s.sink ++ [.emitFrame u, .commit])
      (hlast : s.state = .crcByte2 ∨ s.state = .ackByte) (hnext : t.state = .noFrame)

/-- FramingError alone is allowed to every unit of a byte (60 R171). -/
theorem byteFlags_allowed (r : ByteRec) {st : FrameState} (h : st ≠ .noFrame) :
    (byteFlags r).allowed st = true := by
  cases st with
  | noFrame => exact absurd rfl h
  | _ => rfl

/-- The unit of a step that is no data step. -/
theorem UnitFor.of_unitOf {s : State} {r : ByteRec} {st : FrameState} {flags : Flags} (hs : s.state = st)
    (hd : st ≠ .dataByte) (ha : flags.allowed st = true) (he : flags.headerBreakExpected = false) :
    UnitFor s r (unitOf st r flags) :=
  ⟨hs.symm, ha, he, by rw [if_neg (hs ▸ hd)]; rfl, rfl, rfl⟩

/-- The state after the header or the instruction bytes is one the wire format allows there (30 R63). -/
theorem mayPrecede_afterHeader (b : BitVec 8) :
    mayPrecede .headerId2 (afterHeader b) = true ∧ mayPrecede .instructionByte2 (afterHeader b) = true := by
  unfold afterHeader
  split <;> exact ⟨rfl, rfl⟩

/-- The calls of each byte state, and where the packet goes on. -/
theorem ByteStep.calls {r : ByteRec} {s t : State} (h : ByteStep r s t) : ByteCalls r s t := by
  cases h with
  | headerId1 hs h =>
    obtain ⟨v, -, h⟩ := withVersion_next h
    cases h
    exact .within _ (.of_unitOf hs (by decide) (byteFlags_allowed r (by decide)) rfl) (by simp)
      (by rw [hs]; rfl)
  | headerId2 hs h =>
    obtain ⟨v, -, h⟩ := withVersion_next h
    cases h
    refine .within _ (.of_unitOf hs (by decide) (byteFlags_allowed r (by decide)) rfl) (by simp) ?_
    rw [hs, State.goto_state]
    split
    · rfl
    · exact (mayPrecede_afterHeader _).1
  | instr1 hs h =>
    obtain ⟨v, -, h⟩ := withVersion_next h
    cases h
    exact .within _ (.of_unitOf hs (by decide) (byteFlags_allowed r (by decide)) rfl) (by simp)
      (by rw [hs]; rfl)
  | instr2 hs h =>
    obtain ⟨v, -, h⟩ := withVersion_next h
    cases h
    refine .within _ (.of_unitOf hs (by decide) (byteFlags_allowed r (by decide)) rfl) (by simp) ?_
    rw [hs, State.goto_state]
    exact (mayPrecede_afterHeader _).2
  | data hs h =>
    obtain ⟨v, -, h⟩ := withVersion_next h
    cases h
    have hu : UnitFor s r
        { unitOf .dataByte r (byteFlags r) with sequenceIndex := s.bodyLen - (s.remaining - 1) } :=
      ⟨hs.symm, byteFlags_allowed r (st := .dataByte) (by decide), rfl, (if_pos hs).symm, rfl, rfl⟩
    refine .within _ hu (by simp) ?_
    rw [hs, State.goto_state]
    split <;> rfl
  | crc1 hs h =>
    cases h
    exact .within _ (.of_unitOf hs (by decide) (byteFlags_allowed r (by decide)) rfl) (by simp)
      (by rw [hs]; rfl)
  | crc2 hs h =>
    obtain ⟨v, -, h⟩ := withVersion_next h
    cases h
    have hu := UnitFor.of_unitOf (r := r) (flags := crc2Flags r (crcMismatch s v r.value)) hs (by decide) rfl rfl
    split
    · exact .within _ hu (by simp) (by rw [hs]; rfl)
    · exact .last _ hu (by simp) (.inl hs) (by simp)
  | ack hs h =>
    cases h
    have hu := UnitFor.of_unitOf (r := r) (flags := ackFlags r s.ackAccept) hs (by decide) rfl rfl
    exact .last _ hu (by simp) (.inr hs) (by simp)

/-! What a host action can do between two steps (10 R20, R25, 70 R200). -/

/-- What every host action but a reset keeps. -/
structure HostKeeps (s t : State) : Prop where
  config : t.config = s.config
  state : t.state = s.state
  mode : t.mode = s.mode
  pos : t.pos = s.pos
  sink : t.sink = s.sink
  controls : s.mode ≠ .idle → t.controls = s.controls
  cancel : s.cancel = true → t.cancel = true

theorem HostKeeps.refl (s : State) : HostKeeps s s := ⟨rfl, rfl, rfl, rfl, rfl, fun _ => rfl, id⟩

theorem HostKeeps.whileIdle {s w : State} (h : s.mode = .idle → HostKeeps s w) : HostKeeps s (s.whileIdle w) := by
  unfold State.whileIdle
  split
  · exact h ‹_›
  · exact .refl s
  · exact .refl s

/-- A write of the control registers in IDLE. -/
theorem HostKeeps.writeControls {s : State} (hm : s.mode = .idle) (k : Controls) :
    HostKeeps s { s with
      version := k.version, spb := k.spb, ackEn := k.ackEn, ackValue := k.ackValue, nodeAck := k.nodeAck } :=
  ⟨rfl, rfl, rfl, rfl, rfl, fun hn => absurd hm hn, id⟩

theorem hostAct_keeps {r : HostReq} (hr : r ≠ .reset) (s : State) : HostKeeps s (hostAct r s) := by
  cases r with
  | reset => exact absurd rfl hr
  | turn => exact .refl s
  | start => exact .refl s
  | writeVersion v => exact .whileIdle fun hm => .writeControls hm { s.controls with version := v }
  | writeSpb n => exact .whileIdle fun hm => .writeControls hm { s.controls with spb := n % 2 ^ s.config.posW }
  | writeAckEn b => exact .whileIdle fun hm => .writeControls hm { s.controls with ackEn := b }
  | writeAckValue b => exact .whileIdle fun hm => .writeControls hm { s.controls with ackValue := b }
  | writeNodeAck a e =>
    simp only [hostAct]
    split
    · exact .whileIdle fun hm =>
        .writeControls hm { s.controls with nodeAck := Memory.write s.nodeAck a.toNat e.toByte }
    · exact .refl s
  | cancel => exact ⟨rfl, rfl, rfl, rfl, rfl, fun _ => rfl, fun _ => rfl⟩
  | read reg => exact ⟨rfl, rfl, rfl, rfl, rfl, fun _ => rfl, id⟩
  | load samples ended => exact .whileIdle fun _ => ⟨rfl, rfl, rfl, rfl, rfl, fun _ => rfl, id⟩
  | deliver more =>
    simp only [hostAct]
    split
    · exact .refl s
    · exact ⟨rfl, rfl, rfl, rfl, rfl, fun _ => rfl, id⟩
  | endStream => exact ⟨rfl, rfl, rfl, rfl, rfl, fun _ => rfl, id⟩

/-- The request taken from the queue is no reset unless the next action is one. -/
theorem ne_reset_of_nextIsReset {s : State} {r : HostReq} {rest : List HostReq} (hr : s.inbox = r :: rest)
    (h : s.nextIsReset = false) : r ≠ .reset := by
  rintro rfl
  simp [State.nextIsReset, hr] at h

end Sys2Proof.Machine
end

section
/-! PROOFS, family 10_state.md: every step keeps the session invariant. -/

namespace Sys2Proof.Machine

/-! Body lengths (43 R141 to R144): at most 128 and even, in every version. -/

theorem popcount_go_le {w : Nat} (x : BitVec w) (n : Nat) : popcount.go x n ≤ n := by
  induction n with
  | zero => exact Nat.le_refl _
  | succ n ih =>
    have hbit := Bool.toNat_le (x.getLsbD n)
    simp only [popcount.go]
    omega

theorem popcount_le {w : Nat} (x : BitVec w) : popcount x ≤ w := popcount_go_le x w

theorem lenV2_le_even (p : Config) (id2 : Byte) : lenV2 p id2 ≤ 128 ∧ lenV2 p id2 % 2 = 0 := by
  simp only [lenV2]
  split
  · split
    · omega
    · split <;> omega
  · split
    · omega
    · split
      · omega
      · split <;> omega

theorem lenV1XF1_le_even (f6 : BitVec 6) : lenV1XF1 f6 ≤ 128 ∧ lenV1XF1 f6 % 2 = 0 := by
  have hf := (f6 >>> 2).isLt
  simp only [lenV1XF1]
  omega

theorem len_le_even (p : Config) (v : Version) (id1 id2 : Byte) :
    len p v id1 id2 ≤ 128 ∧ len p v id1 id2 % 2 = 0 := by
  have h3 := popcount_le (field3 p id2)
  have h6 := popcount_le (field6 p id2)
  cases v with
  | v1 => simp only [len, lenV1]; split <;> omega
  | v1Extended =>
    simp only [len, lenV1X]
    split
    · omega
    · exact lenV1XF1_le_even _
  | v2 => exact lenV2_le_even p id2

/-- A body length fits its register. -/
theorem bodyLen_toNat (p : Config) (v : Version) (id1 id2 : Byte) :
    (BitVec.ofNat 8 (len p v id1 id2)).toNat = len p v id1 id2 := by
  have := (len_le_even p v id1 id2).1
  rw [BitVec.toNat_ofNat]
  omega

/-! The parts of the invariant that a state step of a byte state has to keep up. -/

/-- The length registers against the state (10 R14, 42 R114 to R117). -/
structure LengthInv (s : State) : Prop where
  length : s.bodyLen.toNat ≤ 128
  counted : s.remaining.toNat ≤ s.bodyLen.toNat
  fresh : s.state = .instructionByte1 ∨ s.state = .instructionByte2 → s.remaining = s.bodyLen
  dataLeft : s.state = .dataByte → 1 ≤ s.remaining.toNat
  evenBody : s.bodyLen.toNat % 2 = 0

/-- The pairing registers against the state, under the version in force (44 R152, R155). -/
structure PairingInv (v : Version) (s : State) : Prop where
  paired : s.config.crcPairs.get v = true → ∀ b, pairPhase s = some b → s.crcPar = b
  unpaired : s.config.crcPairs.get v = false → s.crcPar = false ∧ s.crcHold = 0

theorem SessionInv.lengthInv {s : State} (h : SessionInv s) : LengthInv s :=
  ⟨h.length, h.counted, h.fresh, h.dataLeft, h.evenBody⟩

theorem SessionInv.pairingInv {s : State} (h : SessionInv s) (hm : s.mode ≠ .idle) {v : Version}
    (hv : s.protocol = some v) : PairingInv v s :=
  ⟨h.pairing hm v hv, h.unpaired hm v hv⟩

/-- A step to a state that no length rule speaks of. -/
theorem LengthInv.of_same {s t : State} (h : LengthInv s) (hb : t.bodyLen = s.bodyLen)
    (hr : t.remaining = s.remaining) (h1 : t.state ≠ .instructionByte1) (h2 : t.state ≠ .instructionByte2)
    (hd : t.state ≠ .dataByte) : LengthInv t where
  length := hb ▸ h.length
  counted := hb ▸ hr ▸ h.counted
  fresh e := (e.elim h1 h2).elim
  dataLeft e := (hd e).elim
  evenBody := hb ▸ h.evenBody

/-- A step that leaves the pairing registers as they are. -/
theorem PairingInv.of_same {v : Version} {s t : State} (h : PairingInv v s) (hc : t.config = s.config)
    (hp : t.crcPar = s.crcPar) (hh : t.crcHold = s.crcHold)
    (hphase : ∀ b, pairPhase t = some b → pairPhase s = some b) : PairingInv v t where
  paired hv b hb := hp ▸ h.paired (hc ▸ hv) b (hphase b hb)
  unpaired hv := hp ▸ hh ▸ h.unpaired (hc ▸ hv)

/-- A step that absorbs one byte: under a version that absorbs in pairs the phase changes with the register. -/
theorem PairingInv.of_absorbed {v : Version} {s t : State} (h : PairingInv v s) (hc : t.config = s.config)
    (hp : t.crcPar = if s.config.crcPairs.get v then !s.crcPar else s.crcPar)
    (hh : s.config.crcPairs.get v = false → t.crcHold = s.crcHold)
    (hphase : ∀ b, pairPhase t = some b → pairPhase s = some (!b)) : PairingInv v t where
  paired hv b hb := by
    rw [hc] at hv
    rw [hp, if_pos hv, h.paired hv _ (hphase b hb), Bool.not_not]
  unpaired hv := by
    rw [hc] at hv
    obtain ⟨hpar, hhold⟩ := h.unpaired hv
    exact ⟨by simp [hp, hv, hpar], by rw [hh hv, hhold]⟩

/-! What every operation of the framer but START keeps. -/

/-- From one state to a later one of the same session: the parameters, the control registers, the stream, the
host's queue and `CTRL.CANCEL` are the same, and the cursor is not behind (10 R12, R20, R29). -/
structure Advances (s t : State) : Prop where
  config : t.config = s.config
  controls : t.controls = s.controls
  surroundings : t.surroundings = s.surroundings
  cancel : t.cancel = s.cancel
  pos : s.pos ≤ t.pos

theorem Advances.refl (s : State) : Advances s s := ⟨rfl, rfl, rfl, rfl, Nat.le_refl _⟩

theorem Advances.trans {s t u : State} (h : Advances s t) (h' : Advances t u) : Advances s u :=
  ⟨h'.config.trans h.config, h'.controls.trans h.controls, h'.surroundings.trans h.surroundings,
    h'.cancel.trans h.cancel, h.pos.trans h'.pos⟩

theorem Advances.protocol {s t : State} (h : Advances s t) : t.protocol = s.protocol :=
  State.protocol_congr h.config (congrArg Controls.version h.controls)

theorem Advances.of_atCursor (s : State) {c : Cursor} (hc : s.cursor.Forward c) : Advances s (s.atCursor c) :=
  ⟨rfl, rfl, rfl, rfl, hc.1⟩

theorem Advances.of_returns (s : State) (r : Result) : Advances s (s.returns r) :=
  ⟨rfl, rfl, rfl, rfl, Nat.le_refl _⟩

theorem Advances.absorb {s t : State} (h : Advances s t) (v : Version) (b : Byte) : Advances s (t.absorb v b) :=
  h.trans ⟨by simp, by simp [State.controls], by simp [State.surroundings], by simp, by simp⟩

theorem Advances.emitUnit {s t : State} (h : Advances s t) (u : FrameUnit) : Advances s (t.emitUnit u) :=
  h.trans ⟨rfl, rfl, rfl, rfl, Nat.le_refl _⟩

theorem Advances.goto {s t : State} (h : Advances s t) (st : FrameState) : Advances s (t.goto st) :=
  h.trans ⟨rfl, rfl, rfl, rfl, Nat.le_refl _⟩

theorem Advances.of_clearPending (s : State) : Advances s s.clearPending := ⟨rfl, rfl, rfl, rfl, Nat.le_refl _⟩

theorem Advances.of_terminate (s : State) (cause : DoneCause) : Advances s (s.terminate cause) :=
  ⟨rfl, rfl, rfl, rfl, Nat.le_refl _⟩

theorem Advances.of_enterMissingByte (s : State) (r : BreakFieldRec) : Advances s (s.enterMissingByte r) :=
  ⟨rfl, rfl, rfl, rfl, Nat.le_refl _⟩

/-- A starved step moves no register but the cursor and `STATUS`. -/
theorem Advances.of_starve (s : State) (c : Cursor) : Advances s (s.starve c) := by
  rcases starve_cases s c with ⟨-, h⟩ | ⟨-, h⟩ <;> rw [h]
  · exact ⟨rfl, rfl, rfl, rfl, Nat.le_add_right _ _⟩
  · exact ⟨rfl, rfl, rfl, rfl, Nat.le_refl _⟩

theorem Advances.of_acceptBreak (s : State) (u : BreakRec) : Advances s (s.acceptBreak u) := by
  unfold State.acceptBreak
  split <;> exact ⟨rfl, rfl, rfl, rfl, Nat.le_refl _⟩

/-! The state steps of the byte states advance (42 R113 to R120). -/

theorem Advances.of_headerid1 {r : ByteRec} {s t : State} (h : execStHeaderid1 r s = .next t) : Advances s t := by
  obtain ⟨v, -, h⟩ := withVersion_next h
  cases h
  refine .goto (.emitUnit (.absorb ?_ v _) _) _
  exact ⟨rfl, rfl, rfl, rfl, Nat.le_refl _⟩

theorem Advances.of_headerid2 {r : ByteRec} {s t : State} (h : execStHeaderid2 r s = .next t) : Advances s t := by
  obtain ⟨v, -, h⟩ := withVersion_next h
  cases h
  refine .goto (.emitUnit (.absorb ?_ v _) _) _
  exact ⟨rfl, rfl, rfl, rfl, Nat.le_refl _⟩

theorem Advances.of_instr1 {r : ByteRec} {s t : State} (h : execStInstr1 r s = .next t) : Advances s t := by
  obtain ⟨v, -, h⟩ := withVersion_next h
  cases h
  exact .goto (.emitUnit (.absorb (.refl s) v _) _) _

theorem Advances.of_instr2 {r : ByteRec} {s t : State} (h : execStInstr2 r s = .next t) : Advances s t := by
  obtain ⟨v, -, h⟩ := withVersion_next h
  cases h
  exact .goto (.emitUnit (.absorb (.refl s) v _) _) _

theorem Advances.of_data {r : ByteRec} {s t : State} (h : execStData r s = .next t) : Advances s t := by
  obtain ⟨v, -, h⟩ := withVersion_next h
  cases h
  refine .goto (.emitUnit (.absorb ?_ v _) _) _
  exact ⟨rfl, rfl, rfl, rfl, Nat.le_refl _⟩

theorem Advances.of_crc1 {r : ByteRec} {s t : State} (h : execStCrc1 r s = .next t) : Advances s t := by
  cases h
  exact ⟨rfl, rfl, rfl, rfl, Nat.le_refl _⟩

theorem Advances.of_crc2 {r : ByteRec} {s t : State} (h : execStCrc2 r s = .next t) : Advances s t := by
  obtain ⟨v, -, h⟩ := withVersion_next h
  cases h
  split <;> exact ⟨rfl, rfl, rfl, rfl, Nat.le_refl _⟩

theorem Advances.of_ack {r : ByteRec} {s t : State} (h : execStAck r s = .next t) : Advances s t := by
  cases h
  exact ⟨rfl, rfl, rfl, rfl, Nat.le_refl _⟩

theorem ByteStep.advances {r : ByteRec} {s t : State} (h : ByteStep r s t) : Advances s t := by
  cases h with
  | headerId1 _ h => exact .of_headerid1 h
  | headerId2 _ h => exact .of_headerid2 h
  | instr1 _ h => exact .of_instr1 h
  | instr2 _ h => exact .of_instr2 h
  | data _ h => exact .of_data h
  | crc1 _ h => exact .of_crc1 h
  | crc2 _ h => exact .of_crc2 h
  | ack _ h => exact .of_ack h

/-- One unit of the sequencer advances. -/
theorem UnitStep.advances {s t : State} (h : UnitStep s t) : Advances s t := by
  cases h with
  | starved c _ ht => exact ht ▸ .of_starve s c
  | pendingBreak _ _ ht => exact ht ▸ .trans (.of_clearPending s) (.of_acceptBreak _ _)
  | scannedBreak _ _ u c hc _ _ _ ht => exact ht ▸ .trans (.of_atCursor s hc) (.of_acceptBreak _ _)
  | missingByte f c hc _ _ ht => exact ht ▸ .trans (.of_atCursor s hc) (.of_enterMissingByte _ _)
  | byte r c hc _ _ h => exact .trans (.of_atCursor s hc) h.advances

/-! What the state step of a byte state does to the registers of the session invariant. -/

theorem ByteStep.registers {r : ByteRec} {s t : State} (h : ByteStep r s t) :
    t.mode = s.mode ∧ t.pendingBreak = s.pendingBreak ∧ t.pos = s.pos ∧ t.lastEnd = r.endPos := by
  cases h with
  | headerId1 _ h => obtain ⟨v, -, h⟩ := withVersion_next h; cases h; simp [unitOf]
  | headerId2 _ h => obtain ⟨v, -, h⟩ := withVersion_next h; cases h; simp [unitOf]
  | instr1 _ h => obtain ⟨v, -, h⟩ := withVersion_next h; cases h; simp [unitOf]
  | instr2 _ h => obtain ⟨v, -, h⟩ := withVersion_next h; cases h; simp [unitOf]
  | data _ h => obtain ⟨v, -, h⟩ := withVersion_next h; cases h; simp [unitOf]
  | crc1 _ h => cases h; simp [unitOf]
  | crc2 _ h => obtain ⟨v, -, h⟩ := withVersion_next h; cases h; split <;> simp [unitOf]
  | ack _ h => cases h; simp [unitOf]

theorem afterHeader_cases (b : BitVec 8) :
    (b = 0 ∧ afterHeader b = .crcByte1) ∨ (b ≠ 0 ∧ afterHeader b = .dataByte) := by
  unfold afterHeader
  split
  · exact .inl ⟨‹_›, rfl⟩
  · exact .inr ⟨‹_›, rfl⟩

theorem afterHeader_eq_dataByte {b : BitVec 8} : afterHeader b = .dataByte ↔ b ≠ 0 := by
  rcases afterHeader_cases b with ⟨hb, h⟩ | ⟨hb, h⟩ <;> rw [h]
  · exact ⟨nofun, fun hne => absurd hb hne⟩
  · exact ⟨fun _ => hb, fun _ => rfl⟩

/-- The count of data bytes is not 0 in `DataByte`, so it goes down without a wrap (42 R117). -/
theorem pred_toNat {x : BitVec 8} (h : 1 ≤ x.toNat) : (x - 1).toNat = x.toNat - 1 := by
  bv_omega

/-- A state before the first data byte: the whole body remains (42 R114 to R116). -/
theorem LengthInv.of_whole {t : State} (hr : t.remaining = t.bodyLen) (hmax : t.bodyLen.toNat ≤ 128)
    (heven : t.bodyLen.toNat % 2 = 0) (hd : t.state = .dataByte → t.bodyLen ≠ 0) : LengthInv t where
  length := hmax
  counted := by rw [hr]
  fresh _ := hr
  dataLeft e := by
    have hne : t.bodyLen.toNat ≠ 0 := fun h0 => hd e (BitVec.eq_of_toNat_eq h0)
    rw [hr]
    omega
  evenBody := heven

theorem LengthInv.of_headerid2 {r : ByteRec} {s t : State} (h : execStHeaderid2 r s = .next t) : LengthInv t := by
  obtain ⟨v, -, h⟩ := withVersion_next h
  cases h
  obtain ⟨hmax, heven⟩ := len_le_even s.config v s.id1 r.value
  have hlen := bodyLen_toNat s.config v s.id1 r.value
  refine .of_whole (by simp) (by simpa [hlen] using hmax) (by simpa [hlen] using heven) fun hd => ?_
  simp only [State.goto_state] at hd
  split at hd
  · cases hd
  · simpa using afterHeader_eq_dataByte.1 hd

theorem LengthInv.of_data {r : ByteRec} {s t : State} (hl : LengthInv s) (hs : s.state = .dataByte)
    (h : execStData r s = .next t) : LengthInv t := by
  obtain ⟨v, -, h⟩ := withVersion_next h
  cases h
  have hpred := pred_toNat (hl.dataLeft hs)
  have hcount := hl.counted
  have hleft := hl.dataLeft hs
  refine ⟨by simpa using hl.length, ?_, fun hi => ?_, fun hd => ?_, by simpa using hl.evenBody⟩
  · simp only [State.goto_remaining, State.emitUnit_remaining, State.absorb_remaining, State.goto_bodyLen,
      State.emitUnit_bodyLen, State.absorb_bodyLen, hpred]
    omega
  · simp only [State.goto_state] at hi
    split at hi <;> simp at hi
  · simp only [State.goto_state] at hd
    split at hd
    · cases hd
    · rename_i hne
      have : s.remaining.toNat ≠ 1 := fun e => hne (BitVec.eq_of_toNat_eq e)
      simp only [State.goto_remaining, State.emitUnit_remaining, State.absorb_remaining, hpred]
      omega

theorem ByteStep.lengthInv {r : ByteRec} {s t : State} (hl : LengthInv s) (h : ByteStep r s t) : LengthInv t := by
  cases h with
  | headerId1 hs h =>
    obtain ⟨v, -, h⟩ := withVersion_next h
    cases h
    exact hl.of_same (by simp) (by simp) (by simp) (by simp) (by simp)
  | headerId2 hs h => exact .of_headerid2 h
  | instr1 hs h =>
    obtain ⟨v, -, h⟩ := withVersion_next h
    cases h
    exact .of_whole (by simpa using hl.fresh (.inl hs)) (by simpa using hl.length) (by simpa using hl.evenBody)
      (by simp)
  | instr2 hs h =>
    obtain ⟨v, -, h⟩ := withVersion_next h
    cases h
    refine .of_whole (by simpa using hl.fresh (.inr hs)) (by simpa using hl.length) (by simpa using hl.evenBody) ?_
    intro hd
    simpa using afterHeader_eq_dataByte.1 hd
  | data hs h => exact hl.of_data hs h
  | crc1 hs h =>
    cases h
    exact hl.of_same (by simp) (by simp) (by simp) (by simp) (by simp)
  | crc2 hs h =>
    obtain ⟨v, -, h⟩ := withVersion_next h
    cases h
    split <;> exact hl.of_same (by simp) (by simp) (by simp) (by simp) (by simp)
  | ack hs h =>
    cases h
    exact hl.of_same (by simp) (by simp) (by simp) (by simp) (by simp)

/-! The pairing phase (44 R155). -/

theorem getLsbD_zero_eq (x : BitVec 8) : x.getLsbD 0 = decide (x.toNat % 2 = 1) := by
  simp [BitVec.getLsbD, Nat.testBit_zero]

/-- One data byte fewer to come: the phase changes. -/
theorem phase_pred (x y : BitVec 8) : (x - y).getLsbD 0 = !(x - (y - 1)).getLsbD 0 := by
  have h : (x - (y - 1)).toNat % 2 = ((x - y).toNat + 1) % 2 := by bv_omega
  rw [getLsbD_zero_eq, getLsbD_zero_eq, ← decide_not, decide_eq_decide]
  omega

/-- The last data byte of an even body is the second of a pair. -/
theorem phase_last {x : BitVec 8} (h : x.toNat % 2 = 0) : (x - 1).getLsbD 0 = true := by
  rw [getLsbD_zero_eq, decide_eq_true_eq]
  bv_omega

/-- Between the header, or the instruction bytes, and the first data byte the phase is at its start. -/
theorem pairPhase_afterHeader {t : State} (hs : t.state = afterHeader t.bodyLen) (hr : t.remaining = t.bodyLen) :
    pairPhase t = some false := by
  rcases afterHeader_cases t.bodyLen with ⟨-, h⟩ | ⟨-, h⟩ <;> rw [h] at hs
  · simp [pairPhase, hs]
  · simp [pairPhase, hs, hr]

theorem ByteStep.pairingInv {r : ByteRec} {s t : State} {v : Version} (hl : LengthInv s) (hv : s.protocol = some v)
    (hp : PairingInv v s) (h : ByteStep r s t) : PairingInv v t := by
  cases h with
  | headerId1 hs h =>
    obtain ⟨w, hw, h⟩ := withVersion_next h
    cases hv.symm.trans hw
    cases h
    exact hp.of_absorbed (by simp) (by simp) (fun hn => by simp [hn]) (by simp [pairPhase, hs])
  | headerId2 hs h =>
    obtain ⟨w, hw, h⟩ := withVersion_next h
    cases hv.symm.trans hw
    cases h
    refine hp.of_absorbed (by simp) (by simp) (fun hn => by simp [hn]) fun b hb => ?_
    have hphase : pairPhase s = some true := by simp [pairPhase, hs]
    split at hb
    · cases hb; exact hphase
    · rw [pairPhase_afterHeader (by simp) (by simp)] at hb
      cases hb; exact hphase
  | instr1 hs h =>
    obtain ⟨w, hw, h⟩ := withVersion_next h
    cases hv.symm.trans hw
    cases h
    exact hp.of_absorbed (by simp) (by simp) (fun hn => by simp [hn]) (by simp [pairPhase, hs])
  | instr2 hs h =>
    obtain ⟨w, hw, h⟩ := withVersion_next h
    cases hv.symm.trans hw
    cases h
    refine hp.of_absorbed (by simp) (by simp) (fun hn => by simp [hn]) fun b hb => ?_
    rw [pairPhase_afterHeader (by simp) (by simpa using hl.fresh (.inr hs))] at hb
    cases hb
    simp [pairPhase, hs]
  | data hs h =>
    obtain ⟨w, hw, h⟩ := withVersion_next h
    cases hv.symm.trans hw
    cases h
    refine hp.of_absorbed (by simp) (by simp) (fun hn => by simp [hn]) fun b hb => ?_
    have hphase : pairPhase s = some ((s.bodyLen - s.remaining).getLsbD 0) := by simp only [pairPhase, hs]
    split at hb
    · rename_i hlast
      cases hb
      rw [hphase, hlast, phase_last hl.evenBody]
      rfl
    · simp only [pairPhase, State.goto_state, State.goto_bodyLen, State.goto_remaining, State.emitUnit_bodyLen,
        State.emitUnit_remaining, State.absorb_bodyLen, State.absorb_remaining, Option.some.injEq] at hb
      rw [hphase, phase_pred, hb]
  | crc1 hs h =>
    cases h
    exact hp.of_same (by simp) (by simp) (by simp) (by simp [pairPhase, hs])
  | crc2 hs h =>
    obtain ⟨w, hw, h⟩ := withVersion_next h
    cases h
    split <;> exact hp.of_same (by simp) (by simp) (by simp) (by simp [pairPhase, hs])
  | ack hs h =>
    cases h
    exact hp.of_same (by simp) (by simp) (by simp) (by simp [pairPhase])

/-- The instruction bit is a bit of the V2 header only (30 R69). -/
theorem eq_v2_of_instructionBit {p : Config} {v : Version} {id2 : Byte} (h : instructionBit p v id2 = true) :
    v = .v2 := by
  cases v with
  | v1 => cases h
  | v1Extended => cases h
  | v2 => rfl

/-- Instruction states are entered under V2 only, and one from the other (42 R114, R115). -/
theorem ByteStep.instr_v2 {r : ByteRec} {s t : State} {v : Version} (hv : s.protocol = some v)
    (hi : s.state = .instructionByte1 ∨ s.state = .instructionByte2 → v = .v2) (h : ByteStep r s t)
    (ht : t.state = .instructionByte1 ∨ t.state = .instructionByte2) : v = .v2 := by
  cases h with
  | headerId1 _ h => obtain ⟨w, -, h⟩ := withVersion_next h; cases h; simp at ht
  | headerId2 _ h =>
    obtain ⟨w, hw, h⟩ := withVersion_next h
    cases hv.symm.trans hw
    cases h
    simp only [State.goto_state] at ht
    split at ht
    · exact eq_v2_of_instructionBit ‹_›
    · rcases afterHeader_cases (BitVec.ofNat 8 (len s.config v s.id1 r.value)) with ⟨-, h⟩ | ⟨-, h⟩ <;>
        simp [h] at ht
  | instr1 hs _ => exact hi (.inl hs)
  | instr2 hs _ => exact hi (.inr hs)
  | data _ h =>
    obtain ⟨w, -, h⟩ := withVersion_next h
    cases h
    simp only [State.goto_state] at ht
    split at ht <;> simp at ht
  | crc1 _ h => cases h; simp at ht
  | crc2 _ h => obtain ⟨w, -, h⟩ := withVersion_next h; cases h; split at ht <;> simp at ht
  | ack _ h => cases h; simp at ht

/-- No byte state goes on to `HeaderBreak`, which is no resting state (10 R11). -/
theorem ByteStep.next_ne_headerBreak {r : ByteRec} {s t : State} (h : ByteStep r s t) : t.state ≠ .headerBreak := by
  cases h.calls with
  | within u hu hsink hnext =>
    intro ht
    rw [ht] at hnext
    cases hs : s.state <;> rw [hs] at hnext <;> cases hnext
  | last u hu hsink hlast hnext => rw [hnext]; decide

/-! Every transition keeps the invariant. -/

/-- A state step of a byte state. -/
theorem SessionInv.byteStep {r : ByteRec} {s t : State} (h : SessionInv s) (hm : s.mode = .run)
    (hend : r.endPos ≤ s.pos) (hstep : ByteStep r s t) : SessionInv t := by
  have hmi : s.mode ≠ .idle := by simp [hm]
  obtain ⟨v, hv⟩ := Option.ne_none_iff_exists'.1 (h.legal hm).1
  have hadv := hstep.advances
  have hconfig := hadv.config
  have hspb : t.spb = s.spb := congrArg Controls.spb hadv.controls
  have hnode : t.nodeAck = s.nodeAck := congrArg Controls.nodeAck hadv.controls
  have hvt : t.protocol = some v := hadv.protocol.trans hv
  obtain ⟨hmode, hbreak, hpos, hlast⟩ := hstep.registers
  have hno : t.pendingBreak ≠ true := by
    rw [hbreak]
    exact fun hp => hstep.state_ne.1 (h.pending hp)
  obtain ⟨hlength, hcounted, hfresh, hleft, heven⟩ := hstep.lengthInv h.lengthInv
  have hpair := hstep.pairingInv h.lengthInv hv (h.pairingInv hmi hv)
  have hinstr : s.state = .instructionByte1 ∨ s.state = .instructionByte2 → v = .v2 := fun hi =>
    Option.some.inj (hv.symm.trans (h.instrOnlyV2 hmi hi))
  have only {w : Version} (hw : t.protocol = some w) : w = v := Option.some.inj (hw.symm.trans hvt)
  exact {
    table := by rw [hconfig, hnode]; exact h.table
    spbFits := by rw [hconfig, hspb]; exact h.spbFits
    legal := fun _ => ⟨by simp [hvt], by rw [hspb]; exact (h.legal hm).2⟩
    resting := hstep.next_ne_headerBreak
    pending := fun hp => absurd hp hno
    length := hlength
    counted := hcounted
    fresh := hfresh
    dataLeft := hleft
    instrOnlyV2 := fun _ hi => by rw [hvt, hstep.instr_v2 hv hinstr hi]
    evenBody := heven
    pairing := fun _ w hw => only hw ▸ hpair.paired
    unpaired := fun _ w hw => only hw ▸ hpair.unpaired
    behind := by rw [hlast, hpos]; exact hend
    pendingBehind := fun hp => absurd hp hno
    pendingOrdered := fun hp => absurd hp hno }

/-- A wire operation moved the cursor on. -/
theorem SessionInv.atCursor {s : State} (h : SessionInv s) {c : Cursor} (hc : s.cursor.Forward c) :
    SessionInv (s.atCursor c) :=
  { h with
    behind := h.behind.trans hc.1
    pendingBehind := fun hp => (h.pendingBehind hp).trans hc.1 }

theorem SessionInv.terminate {s : State} (h : SessionInv s) (hm : s.mode = .run) (cause : DoneCause) :
    SessionInv (s.terminate cause) :=
  have hmi : s.mode ≠ .idle := by simp [hm]
  { h with
    legal := fun hr => by cases hr
    instrOnlyV2 := fun _ => h.instrOnlyV2 hmi
    pairing := fun _ => h.pairing hmi
    unpaired := fun _ => h.unpaired hmi }

theorem SessionInv.exhaustedAt {s : State} (h : SessionInv s) (c : Cursor) : SessionInv (s.exhaustedAt c) :=
  { h with
    behind := h.behind.trans (Nat.le_add_right _ _)
    pendingBehind := fun hp => (h.pendingBehind hp).trans (Nat.le_add_right _ _) }

theorem SessionInv.starve {s : State} (h : SessionInv s) (hm : s.mode = .run) (c : Cursor) :
    SessionInv (s.starve c) := by
  rcases starve_cases s c with ⟨-, hs⟩ | ⟨-, hs⟩ <;> rw [hs]
  · exact (h.exhaustedAt c).terminate hm _
  · exact { h with table := h.table }

theorem SessionInv.clearPending {s : State} (h : SessionInv s) : SessionInv s.clearPending :=
  { h with
    pending := nofun
    pendingBehind := nofun
    pendingOrdered := nofun }

/-- A break is consumed: the packet begins, or header detection goes on. -/
theorem SessionInv.acceptBreak {s : State} (h : SessionInv s) (hp : s.pendingBreak = false) {u : BreakRec}
    (hend : u.endPos ≤ s.pos) : SessionInv (s.acceptBreak u) := by
  unfold State.acceptBreak
  split
  · exact { h with
      resting := nofun
      pending := fun hp' => by cases hp.symm.trans hp'
      fresh := nofun
      dataLeft := nofun
      instrOnlyV2 := nofun
      pairing := fun _ _ _ _ _ hb => Option.some.inj hb
      unpaired := fun hm v hv hn => ⟨rfl, (h.unpaired hm v hv hn).2⟩
      behind := hend }
  · exact { h with
      resting := nofun
      pending := fun _ => rfl
      fresh := nofun
      dataLeft := nofun
      instrOnlyV2 := nofun
      pairing := nofun
      behind := hend }

theorem SessionInv.enterMissingByte {s : State} (h : SessionInv s) {f : BreakFieldRec} (hend : f.endPos ≤ s.pos)
    (hle : f.startPos ≤ f.endPos) : SessionInv (s.enterMissingByte f) :=
  { h with
    resting := nofun
    pending := fun _ => rfl
    fresh := nofun
    dataLeft := nofun
    instrOnlyV2 := nofun
    pairing := nofun
    pendingBehind := fun _ => hend
    pendingOrdered := fun _ => hle }

/-- One unit of the sequencer. -/
theorem SessionInv.unitStep {s t : State} (h : SessionInv s) (hm : s.mode = .run) (hstep : UnitStep s t) :
    SessionInv t := by
  cases hstep with
  | starved c _ ht => exact ht ▸ h.starve hm c
  | pendingBreak _ hp ht => exact ht ▸ h.clearPending.acceptBreak rfl (h.pendingBehind hp)
  | scannedBreak _ hp u c hc _ hend _ ht => exact ht ▸ (h.atCursor hc).acceptBreak hp hend.le
  | missingByte f c hc hend hle ht => exact ht ▸ (h.atCursor hc).enterMissingByte hend.le hle
  | byte r c hc hend _ hb => exact (h.atCursor hc).byteStep hm hend.le hb

theorem SessionInv.iter {s t : State} (h : SessionInv s) (hstep : execIter s = .next t) : SessionInv t := by
  rcases execIter_next hstep with ⟨-, ht⟩ | ⟨hm, -, -, ht⟩ | ⟨hm, -, hu⟩
  · exact ht ▸ h
  · exact ht ▸ h.terminate hm _
  · exact h.unitStep hm (unitStep_next hu)

theorem SessionInv.beginSession {s : State} (h : SessionInv s) (hl : s.legalConfig = true) :
    SessionInv s.beginSession :=
  have hlegal : s.protocol ≠ none ∧ 2 ≤ s.spb := by
    simpa [State.legalConfig, Option.isSome_iff_ne_none] using hl
  { h with
    legal := fun _ => hlegal
    resting := nofun
    pending := nofun
    length := Nat.zero_le _
    counted := Nat.le_refl _
    fresh := nofun
    dataLeft := nofun
    instrOnlyV2 := nofun
    evenBody := rfl
    pairing := nofun
    unpaired := fun _ _ _ _ => ⟨rfl, rfl⟩
    behind := Nat.le_refl _
    pendingBehind := nofun
    pendingOrdered := nofun }

theorem SessionInv.start {s t : State} (h : SessionInv s) (hstep : execSessionStart s = .next t) : SessionInv t := by
  rcases execSessionStart_next hstep with ⟨-, hl, ht⟩ | ht
  · exact ht ▸ h.beginSession hl
  · exact ht ▸ h

/-- The host takes an action from the queue. -/
theorem SessionInv.dequeue {s : State} (h : SessionInv s) (rest : List HostReq) :
    SessionInv { s with inbox := rest } := { h with table := h.table }

/-- A machine right after reset. -/
theorem SessionInv.resetWith (p : Config) : SessionInv (State.resetWith p) where
  table := reset_wf p
  spbFits := Nat.two_pow_pos _
  legal := nofun
  resting := nofun
  pending := nofun
  length := Nat.zero_le _
  counted := Nat.le_refl _
  fresh := nofun
  dataLeft := nofun
  instrOnlyV2 hm := absurd rfl hm
  evenBody := rfl
  pairing hm := absurd rfl hm
  unpaired hm := absurd rfl hm
  behind := Nat.le_refl _
  pendingBehind := nofun
  pendingOrdered := nofun

/-- The control registers written in IDLE: the table canonical and the bit period in its width. -/
theorem SessionInv.writeControls {s : State} (h : SessionInv s) (hm : s.mode = .idle) (k : Controls)
    (hk : Memory.wf s.config.nodeAckSize k.nodeAck = true) (hspb : k.spb < 2 ^ s.config.posW) :
    SessionInv { s with
      version := k.version, spb := k.spb, ackEn := k.ackEn, ackValue := k.ackValue, nodeAck := k.nodeAck } :=
  { h with
    table := hk
    spbFits := hspb
    legal := fun hr => by cases hm.symm.trans hr
    instrOnlyV2 := fun hn => absurd hm hn
    pairing := fun hn => absurd hm hn
    unpaired := fun hn => absurd hm hn }

/-- A write that takes effect in IDLE only. -/
theorem SessionInv.whileIdle {s w : State} (h : SessionInv s) (hw : s.mode = .idle → SessionInv w) :
    SessionInv (s.whileIdle w) := by
  unfold State.whileIdle
  split
  · exact hw ‹_›
  · exact h
  · exact h

theorem SessionInv.hostAct {s : State} (h : SessionInv s) (r : HostReq) : SessionInv (hostAct r s) := by
  cases r with
  | turn => exact h
  | start => exact h
  | writeVersion v =>
    exact h.whileIdle fun hm => h.writeControls hm { s.controls with version := v } h.table h.spbFits
  | writeSpb n =>
    exact h.whileIdle fun hm => h.writeControls hm { s.controls with spb := n % 2 ^ s.config.posW } h.table
      (Nat.mod_lt _ (Nat.two_pow_pos _))
  | writeAckEn b => exact h.whileIdle fun hm => h.writeControls hm { s.controls with ackEn := b } h.table h.spbFits
  | writeAckValue b =>
    exact h.whileIdle fun hm => h.writeControls hm { s.controls with ackValue := b } h.table h.spbFits
  | writeNodeAck a e =>
    simp only [Machine.hostAct]
    split
    · exact h.whileIdle fun hm =>
        h.writeControls hm { s.controls with nodeAck := Memory.write s.nodeAck a.toNat e.toByte }
          (Memory.write_wfAbove h.table (Nat.zero_le _) ‹_› e.toByte_lt) h.spbFits
    · exact h
  | cancel => exact { h with table := h.table }
  | reset => exact { SessionInv.resetWith s.config with table := reset_wf s.config }
  | read reg => exact { h with table := h.table }
  | load samples ended => exact h.whileIdle fun _ => { h with table := h.table }
  | deliver more =>
    simp only [Machine.hostAct]
    split
    · exact h
    · exact { h with table := h.table }
  | endStream => exact { h with table := h.table }

/-- Settles O51: the framer's own step, START and every other host action keep the invariant. -/
theorem stepKeepsSessionInv : Obligations.StepKeepsSessionInv := by
  intro s t h hstep
  rcases step_next hstep with ⟨-, hi⟩ | ⟨rest, -, hi⟩ | ⟨rest, -, hs⟩ | ⟨r, rest, -, -, ht⟩
  · exact h.iter hi
  · exact (h.dequeue rest).iter hi
  · exact (h.dequeue rest).start hs
  · exact ht ▸ (h.dequeue rest).hostAct r

end Sys2Proof.Machine
end

section
/-! PROOFS, family 10_state.md: what reaches the sink, unit by unit and packet by packet. -/

namespace Sys2Proof.Machine

/-! The calls of each transition. -/

/-- The step of a break state on the all-zero sentinel (42 R111, first branch). -/
theorem acceptBreak_of_zero (s : State) {u : BreakRec} (hv : u.value = 0x00) :
    (s.acceptBreak u).sink = s.sink ++ [.commit, .emitFrame (breakUnit u)] ∧
      (s.acceptBreak u).state = .headerId1 ∧ (s.acceptBreak u).mode = s.mode := by
  simp [State.acceptBreak, hv]

/-- Host actions make no sink call; nor does a reset (70 R190). -/
theorem hostAct_sink (r : HostReq) (s : State) : (hostAct r s).sink = s.sink := by
  by_cases hr : r = .reset
  · subst hr; rfl
  · exact (hostAct_keeps hr s).sink

theorem execSessionStart_sink {s t : State} (h : execSessionStart s = .next t) : t.sink = s.sink := by
  rcases execSessionStart_next h with ⟨-, -, ht⟩ | ht <;> rw [ht]
  exact State.beginSession_sink s

/-- A starved step hands on at most the markers made so far. -/
theorem starve_sink {s : State} {c : Cursor} (hc : s.cursor.Forward c) :
    ∃ m, MarkersOnly m ∧ (s.starve c).sink = s.sink ++ m := by
  obtain ⟨-, m, htrace, hm⟩ := hc
  rcases starve_cases s c with ⟨-, hs⟩ | ⟨-, hs⟩ <;> rw [hs]
  · exact ⟨m, hm, by simp [htrace, State.cursor]⟩
  · exact ⟨[], by simp [MarkersOnly], by simp⟩

/-- So does a completed wire operation. -/
theorem atCursor_sink {s : State} {c : Cursor} (hc : s.cursor.Forward c) :
    ∃ m, MarkersOnly m ∧ (s.atCursor c).sink = s.sink ++ m := by
  obtain ⟨-, m, htrace, hm⟩ := hc
  exact ⟨m, hm, by simp [htrace, State.cursor]⟩

/-! Units (60 R178). -/

theorem UnitsSound.append {l m : List SinkCall} (hl : UnitsSound l) (hm : UnitsSound m) : UnitsSound (l ++ m) :=
  fun u hu => (List.mem_append.1 hu).elim (hl u) (hm u)

theorem UnitsSound.of_markers {m : List SinkCall} (hm : MarkersOnly m) : UnitsSound m := by
  intro u hu
  obtain ⟨p, k, h⟩ := hm _ hu
  cases h

/-- Calls with one unit among them. -/
theorem UnitsSound.of_one {u : FrameUnit} (hu : u.sound) {m : List SinkCall}
    (hm : ∀ v, .emitFrame v ∈ m → v = u) : UnitsSound m :=
  fun v hv => hm v hv ▸ hu

theorem UnitsSound.atCursor {s : State} (h : UnitsSound s.sink) {c : Cursor} (hc : s.cursor.Forward c) :
    UnitsSound (s.atCursor c).sink := by
  obtain ⟨m, hm, hsink⟩ := atCursor_sink hc
  exact hsink ▸ h.append (.of_markers hm)

theorem UnitsSound.starve {s : State} (h : UnitsSound s.sink) {c : Cursor} (hc : s.cursor.Forward c) :
    UnitsSound (s.starve c).sink := by
  obtain ⟨m, hm, hsink⟩ := starve_sink hc
  exact hsink ▸ h.append (.of_markers hm)

/-- The unit of a break with the all-zero sentinel (40 R91). -/
theorem breakUnit_sound {u : BreakRec} (hv : u.value = 0x00) (hle : u.startPos ≤ u.endPos) : (breakUnit u).sound :=
  ⟨nofun, rfl, by simp [breakUnit, breakFlags, hv], nofun, fun _ => rfl, fun _ => hv, hle⟩

theorem UnitsSound.acceptBreak {s : State} (h : UnitsSound s.sink) {u : BreakRec} (hv : u.value = 0x00)
    (hle : u.startPos ≤ u.endPos) : UnitsSound (s.acceptBreak u).sink := by
  rw [(acceptBreak_of_zero s hv).1]
  exact h.append (.of_one (breakUnit_sound hv hle) (by simp))

/-- The sequence index of a data byte: from 1 for the first byte to the body length for the last (42 R122). -/
theorem sequenceIndex_bounds {body left : BitVec 8} (hmax : body.toNat ≤ 128) (hcount : left.toNat ≤ body.toNat)
    (hleft : 1 ≤ left.toNat) : 1 ≤ (body - (left - 1)).toNat ∧ (body - (left - 1)).toNat ≤ 128 := by
  bv_omega

/-- The unit of a byte state. -/
theorem UnitFor.sound {r : ByteRec} {s : State} {u : FrameUnit} (hl : LengthInv s) (hs : s.state ≠ .noFrame)
    (hb : s.state ≠ .headerBreak) (hle : r.startPos ≤ r.endPos) (hu : UnitFor s r u) : u.sound := by
  obtain ⟨hstate, hallowed, hexp, hindex, hstart, hend⟩ := hu
  refine ⟨hstate ▸ hs, hallowed, hexp, fun hd => ?_, fun hd => ?_, fun h => ?_, by rw [hstart, hend]; exact hle⟩
  · rw [hstate] at hd
    rw [hindex, if_pos hd]
    exact sequenceIndex_bounds hl.length hl.counted (hl.dataLeft hd)
  · rw [hindex, if_neg (hstate ▸ hd)]
  · exact absurd (hstate ▸ h) hb

theorem ByteStep.unitsSound {r : ByteRec} {s t : State} (hl : LengthInv s) (h : UnitsSound s.sink)
    (hle : r.startPos ≤ r.endPos) (hstep : ByteStep r s t) : UnitsSound t.sink := by
  obtain ⟨hs, hb⟩ := hstep.state_ne
  cases hstep.calls with
  | within u hu hsink _ => exact hsink ▸ h.append (.of_one (hu.sound hl hs hb hle) (by simp))
  | last u hu hsink _ _ => exact hsink ▸ h.append (.of_one (hu.sound hl hs hb hle) (by simp))

theorem UnitStep.unitsSound {s t : State} (hinv : SessionInv s) (h : UnitsSound s.sink) (hstep : UnitStep s t) :
    UnitsSound t.sink := by
  cases hstep with
  | starved c hc ht => exact ht ▸ h.starve hc
  | pendingBreak _ hp ht =>
    exact ht ▸ UnitsSound.acceptBreak (s := s.clearPending) h rfl (hinv.pendingOrdered hp)
  | scannedBreak _ _ u c hc hv _ hle ht => exact ht ▸ (h.atCursor hc).acceptBreak hv hle
  | missingByte f c hc _ _ ht =>
    subst ht
    rw [State.enterMissingByte_sink]
    exact (h.atCursor hc).append (fun u hu => by simp at hu)
  | byte r c hc _ hle hb => exact hb.unitsSound (hinv.atCursor hc).lengthInv (h.atCursor hc) hle

theorem execIter_unitsSound {s t : State} (hinv : SessionInv s) (h : UnitsSound s.sink)
    (hstep : execIter s = .next t) : UnitsSound t.sink := by
  rcases execIter_next hstep with ⟨-, ht⟩ | ⟨-, -, -, ht⟩ | ⟨-, -, hu⟩
  · exact ht ▸ h
  · exact ht ▸ h
  · exact (unitStep_next hu).unitsSound hinv h

/-- Settles O52: only the framer's own step makes sink calls, and the unit it makes is sound. -/
theorem stepEmitsSoundUnits : Obligations.StepEmitsSoundUnits := by
  intro s t hinv h hstep
  rcases step_next hstep with ⟨-, hi⟩ | ⟨rest, -, hi⟩ | ⟨rest, -, hs⟩ | ⟨r, rest, -, -, ht⟩
  · exact execIter_unitsSound hinv h hi
  · exact execIter_unitsSound (hinv.dequeue rest) h hi
  · rw [execSessionStart_sink hs]; exact h
  · rw [ht, hostAct_sink]; exact h

/-! Packets (10 R31, 30 R63). -/

theorem rolesFrom_append_one (ok : FrameState → Bool) (a b : FrameState) (l : List FrameState) :
    rolesFrom ok a (l ++ [b]) = (rolesFrom (mayPrecede · b) a l && ok b) := by
  induction l generalizing a with
  | nil => rfl
  | cons c l ih => simp [rolesFrom, ih, Bool.and_assoc]

/-- An open packet goes on with a unit of the role it waits for. -/
theorem packetRoles_append_one {ok : FrameState → Bool} {units : List FrameUnit} {u : FrameUnit}
    (h : openPacketFor u.state units = true) (hok : ok u.state = true) : packetRoles ok (units ++ [u]) = true := by
  cases units with
  | nil => cases h
  | cons v rest =>
    simp only [openPacketFor, packetRoles, List.map_cons, Bool.and_eq_true] at h
    obtain ⟨hbreak, hroles⟩ := h
    simp [packetRoles, rolesFrom_append_one, hbreak, hroles, hok]

/-- Nothing precedes the two states that stand between packets. -/
theorem mayPrecede_ne {a b : FrameState} (h : mayPrecede a b = true) : b ≠ .noFrame ∧ b ≠ .headerBreak := by
  constructor <;> rintro rfl <;> cases a <;> cases h

/-- No packet is in progress: the session has not begun, or header detection looks for a break. -/
def State.betweenPackets (s : State) : Prop := s.mode = .idle ∨ s.state = .noFrame ∨ s.state = .headerBreak

theorem packetInv_between {s : State} (h : s.betweenPackets) :
    PacketInv s ↔
      (∀ p ∈ (sinkView s.sink).packets, wholePacket p = true) ∧ (sinkView s.sink).openPacket = [] := by
  unfold State.betweenPackets at h
  rw [PacketInv, if_pos h]

theorem packetInv_within {s : State} (h : ¬ s.betweenPackets) :
    PacketInv s ↔ (∀ p ∈ (sinkView s.sink).packets, wholePacket p = true) ∧
      openPacketFor s.state (sinkView s.sink).openPacket = true := by
  unfold State.betweenPackets at h
  rw [PacketInv, if_neg h]

/-- Two more calls. -/
theorem sinkView_append_two (calls : List SinkCall) (c d : SinkCall) :
    sinkView (calls ++ [c, d]) = ((sinkView calls).call c).call d := by simp [sinkView]

/-- Markers are part of no packet (20 R54). -/
theorem sinkView_append_markers (calls : List SinkCall) {m : List SinkCall} (hm : MarkersOnly m) :
    (sinkView (calls ++ m)).openPacket = (sinkView calls).openPacket ∧
      (sinkView (calls ++ m)).packets = (sinkView calls).packets := by
  induction m using List.reverseRecOn with
  | nil => simp
  | append_singleton m x ih =>
    obtain ⟨p, k, rfl⟩ := hm x (by simp)
    rw [← List.append_assoc, sinkView_append_one]
    exact ih fun y hy => hm y (by simp [hy])

/-- Two states between the same two calls, but for markers. -/
theorem PacketInv.of_markers {s t : State} (h : PacketInv s) {m : List SinkCall} (hm : MarkersOnly m)
    (hsink : t.sink = s.sink ++ m) (hstate : t.state = s.state) (hmode : t.mode = .idle ↔ s.mode = .idle) :
    PacketInv t := by
  obtain ⟨hopen, hpackets⟩ := sinkView_append_markers s.sink hm
  simpa only [PacketInv, hsink, hopen, hpackets, hstate, hmode] using h

theorem PacketInv.of_sink_eq {s t : State} (h : PacketInv s) (hsink : t.sink = s.sink) (hstate : t.state = s.state)
    (hmode : t.mode = .idle ↔ s.mode = .idle) : PacketInv t :=
  h.of_markers (m := []) (by simp [MarkersOnly]) (by simpa using hsink) hstate hmode

theorem PacketInv.atCursor {s : State} (h : PacketInv s) {c : Cursor} (hc : s.cursor.Forward c) :
    PacketInv (s.atCursor c) := by
  obtain ⟨m, hm, hsink⟩ := atCursor_sink hc
  exact h.of_markers hm hsink rfl Iff.rfl

theorem PacketInv.starve {s : State} (h : PacketInv s) (hm : s.mode = .run) {c : Cursor}
    (hc : s.cursor.Forward c) : PacketInv (s.starve c) := by
  obtain ⟨m, hmarkers, hsink⟩ := starve_sink hc
  rcases starve_cases s c with ⟨-, hs⟩ | ⟨-, hs⟩ <;> rw [hs] at hsink ⊢
  · exact h.of_markers hmarkers hsink rfl (by simp [hm])
  · exact h.of_markers hmarkers hsink rfl Iff.rfl

/-- A break field opens a packet where none was in progress. -/
theorem PacketInv.acceptBreak {s : State} (h : PacketInv s) (hm : s.mode = .run)
    (hs : s.state = .noFrame ∨ s.state = .headerBreak) {u : BreakRec} (hv : u.value = 0x00) :
    PacketInv (s.acceptBreak u) := by
  obtain ⟨hsink, hstate, hmode⟩ := acceptBreak_of_zero s hv
  obtain ⟨hwhole, hopen⟩ := (packetInv_between (.inr hs)).1 h
  refine (packetInv_within (by simp [State.betweenPackets, hstate, hmode, hm])).2 ?_
  have hview : sinkView (s.acceptBreak u).sink =
      { sinkView s.sink with openPacket := [breakUnit u] } := by
    rw [hsink, sinkView_append_two, SinkView.call_commit_empty hopen]
    simp [hopen]
  rw [hview, hstate]
  exact ⟨hwhole, rfl⟩

/-- A missing byte drops the packet in progress (42 R126). -/
theorem PacketInv.enterMissingByte {s : State} (h : PacketInv s) (f : BreakFieldRec) :
    PacketInv (s.enterMissingByte f) := by
  refine (packetInv_between (.inr (.inl rfl))).2 ?_
  rw [State.enterMissingByte_sink, sinkView_append_two]
  exact ⟨h.1, rfl⟩

/-- The step of a byte state lengthens the open packet, or closes it as a whole packet. -/
theorem PacketInv.byteStep {r : ByteRec} {s t : State} (h : PacketInv s) (hm : s.mode = .run)
    (hstep : ByteStep r s t) : PacketInv t := by
  obtain ⟨hs, hb⟩ := hstep.state_ne
  obtain ⟨hwhole, hopen⟩ := (packetInv_within (by simp [State.betweenPackets, hm, hs, hb])).1 h
  cases hstep.calls with
  | within u hu hsink hnext =>
    obtain ⟨ht, htb⟩ := mayPrecede_ne hnext
    refine (packetInv_within (by simp [State.betweenPackets, hstep.registers.1, hm, ht, htb])).2 ?_
    rw [hsink, sinkView_append_one]
    rw [← hu.state] at hopen hnext
    exact ⟨hwhole, packetRoles_append_one hopen hnext⟩
  | last u hu hsink hlast hnext =>
    refine (packetInv_between (.inr (.inl hnext))).2 ?_
    rw [hsink, sinkView_append_two, SinkView.call_commit_of_ne (by simp)]
    refine ⟨fun p hp => ?_, rfl⟩
    rcases List.mem_append.1 hp with hp | hp
    · exact hwhole p hp
    · rw [List.mem_singleton.1 hp]
      rw [← hu.state] at hopen hlast
      exact packetRoles_append_one hopen (by simpa using hlast)

theorem PacketInv.unitStep {s t : State} (h : PacketInv s) (hm : s.mode = .run) (hstep : UnitStep s t) :
    PacketInv t := by
  cases hstep with
  | starved c hc ht => exact ht ▸ h.starve hm hc
  | pendingBreak hs _ ht =>
    exact ht ▸ PacketInv.acceptBreak (s := s.clearPending) (h.of_sink_eq rfl rfl Iff.rfl) hm hs rfl
  | scannedBreak hs _ u c hc hv _ _ ht => exact ht ▸ (h.atCursor hc).acceptBreak hm hs hv
  | missingByte f c hc _ _ ht => exact ht ▸ (h.atCursor hc).enterMissingByte f
  | byte r c hc _ _ hb => exact (h.atCursor hc).byteStep hm hb

theorem PacketInv.iter {s t : State} (h : PacketInv s) (hstep : execIter s = .next t) : PacketInv t := by
  rcases execIter_next hstep with ⟨-, ht⟩ | ⟨hm, -, -, ht⟩ | ⟨hm, -, hu⟩
  · exact ht ▸ h
  · exact ht ▸ h.of_sink_eq rfl rfl (by simp [hm])
  · exact h.unitStep hm (unitStep_next hu)

/-- A session begins with nothing open at the sink (70 R191 item 6). -/
theorem PacketInv.start {s t : State} (h : PacketInv s) (hstep : execSessionStart s = .next t) : PacketInv t := by
  rcases execSessionStart_next hstep with ⟨hm, -, ht⟩ | ht
  · subst ht
    exact (packetInv_between (.inr (.inl rfl))).2 ((packetInv_between (.inl hm)).1 h)
  · exact ht ▸ h

theorem PacketInv.hostAct {s : State} (h : PacketInv s) {r : HostReq} (hr : r ≠ .reset) :
    PacketInv (hostAct r s) := by
  have hkeeps := hostAct_keeps hr s
  exact h.of_sink_eq hkeeps.sink hkeeps.state (by rw [hkeeps.mode])

/-- Settles O53: a packet grows by the role that `state` stands for and becomes visible when it is whole. -/
theorem packetsAreWhole : Obligations.PacketsAreWhole := by
  intro s t h hreset hstep
  have dequeue (rest : List HostReq) : PacketInv { s with inbox := rest } := h
  rcases step_next hstep with ⟨-, hi⟩ | ⟨rest, -, hi⟩ | ⟨rest, -, hs⟩ | ⟨r, rest, hr, -, ht⟩
  · exact h.iter hi
  · exact (dequeue rest).iter hi
  · exact (dequeue rest).start hs
  · exact ht ▸ (dequeue rest).hostAct (ne_reset_of_nextIsReset hr hreset)

end Sys2Proof.Machine
end

section
/-! PROOFS, family 10_state.md: the reset table, the invariants at reset, and what operations and host writes leave
alone. -/

namespace Sys2Proof.Machine

/-! Reset (10 R33, 70 R190). -/

/-- A table with no cell has no entry present. -/
theorem nodeEntry_nil (a : Byte) : (nodeEntry [] a).present = false := by
  simp [nodeEntry, Memory.read, nodeDefault, NodeEntry.ofByte]

/-- START from IDLE under a legal configuration (42 R127). -/
theorem execSessionStart_of_legal {s : State} (hm : s.mode = .idle) (hp : s.protocol ≠ none) (hs : 2 ≤ s.spb) :
    execSessionStart s = .next s.beginSession := by
  have hl : s.legalConfig = true := by simp [State.legalConfig, Option.isSome_iff_ne_none, hp, hs]
  simp [execSessionStart, hm, hl]

/-- Settles O1: the constants of the reset state, and the same ones in `State.beginSession`. -/
theorem resetTableAndStart : Obligations.ResetTableAndStart := by
  refine ⟨⟨rfl, rfl, rfl, rfl, rfl, rfl, rfl, rfl, rfl, rfl, rfl, rfl, rfl, rfl, rfl, rfl, rfl, nodeEntry_nil,
    rfl, rfl, rfl⟩, fun s hm hp hs => ?_⟩
  exact ⟨s.beginSession, execSessionStart_of_legal hm hp hs, rfl, rfl, rfl, rfl, rfl, rfl, rfl, rfl, rfl, rfl, rfl,
    rfl, rfl, rfl⟩

/-- Settles O50: nothing is at the sink of the reset state, and no session has begun. -/
theorem invariantsHoldAtReset : Obligations.InvariantsHoldAtReset :=
  ⟨.resetWith cfg, .of_markers nofun, (packetInv_between (.inl rfl)).2 ⟨nofun, rfl⟩⟩

/-! Host writes (10 R20, 70 R200). -/

theorem whileIdle_of_idle {s : State} (h : s.mode = .idle) (w : State) : s.whileIdle w = w := by
  simp [State.whileIdle, h]

theorem whileIdle_of_busy {s : State} (h : s.mode = .run ∨ s.mode = .done) (w : State) : s.whileIdle w = s := by
  rcases h with h | h <;> simp [State.whileIdle, h]

/-- Settles O33: each control-register write goes through `State.whileIdle`, and one past the table writes
nothing. -/
theorem controlWritesOnlyInIdle : Obligations.ControlWritesOnlyInIdle := by
  intro s v n b x a e
  refine ⟨fun hm => ?_, fun hm => ?_⟩
  · refine ⟨whileIdle_of_idle hm _, whileIdle_of_idle hm _, whileIdle_of_idle hm _, whileIdle_of_idle hm _,
      fun ha => ?_, fun ha => ?_⟩
    · rw [hostAct, if_pos ha, whileIdle_of_idle hm]
    · rw [hostAct, if_neg (Nat.not_lt.2 ha)]
  · refine ⟨whileIdle_of_busy hm _, whileIdle_of_busy hm _, whileIdle_of_busy hm _, whileIdle_of_busy hm _, ?_⟩
    simp only [hostAct, whileIdle_of_busy hm, ite_self]

/-! Every operation but START advances (10 R12, R29). -/

theorem execIter_advances {s t : State} (h : execIter s = .next t) : Advances s t := by
  rcases execIter_next h with ⟨-, ht⟩ | ⟨-, -, -, ht⟩ | ⟨-, -, hu⟩
  · exact ht ▸ .refl s
  · exact ht ▸ .of_terminate s _
  · exact (unitStep_next hu).advances

/-- A wire operation called alone hands its record to the caller, or starves. -/
theorem onWire_returns_advances {α : Type} {s t : State} {w : Wire α} {f : α → Result} (hw : w.Forward s.cursor)
    (h : s.onWire w (fun a s => .next (s.returns (f a))) = .next t) : Advances s t := by
  rcases onWire_next h with ⟨a, c, hdone, h⟩ | ⟨c, -, ht⟩
  · cases h
    exact .trans (.of_atCursor s (hw.of_done hdone)) (.of_returns _ _)
  · exact ht ▸ .of_starve s c

theorem execBrkScan_advances {s t : State} (h : execBrkScan s = .next t) : Advances s t := by
  obtain ⟨v, -, -, h⟩ := withTiming_next h
  exact onWire_returns_advances (brkScan_forward _ _ _ _ _) h

theorem execByteRead_advances {s t : State} (h : execByteRead s = .next t) : Advances s t := by
  obtain ⟨v, -, -, h⟩ := withTiming_next h
  exact onWire_returns_advances (byteRead_forward _ _ _ _ _) h

theorem execLen_advances {w : BitVec 2} {id1 id2 : Byte} {s t : State} (h : execLen w id1 id2 s = .next t) :
    Advances s t := by
  unfold execLen at h
  split at h
  · cases h; exact .of_returns s _
  · cases h

theorem exec_advances {i : Instr} {s t : State} (hi : i ≠ .sessionStart) (h : exec i s = .next t) :
    Advances s t := by
  cases i with
  | sessionStart => exact absurd rfl hi
  | iter => exact execIter_advances h
  | brkScan => exact execBrkScan_advances h
  | byteRead => exact execByteRead_advances h
  | stNoframe u => cases h; exact .of_acceptBreak s u
  | stHeaderbreak u => cases h; exact .of_acceptBreak s u
  | stHeaderid1 r => exact .of_headerid1 h
  | stHeaderid2 r => exact .of_headerid2 h
  | stInstr1 r => exact .of_instr1 h
  | stInstr2 r => exact .of_instr2 h
  | stData r => exact .of_data h
  | stCrc1 r => exact .of_crc1 h
  | stCrc2 r => exact .of_crc2 h
  | stAck r => exact .of_ack h
  | missingByte r => cases h; exact .of_enterMissingByte s r
  | sessionCancel | sessionExhaust => cases h; exact .of_terminate s _
  | len w id1 id2 => exact execLen_advances h
  | instrV2 => cases h; exact .goto (.refl s) _
  | crcReset | crcAbsorbV1 | crcAbsorbV2 => cases h; exact ⟨rfl, rfl, rfl, rfl, Nat.le_refl _⟩
  | crcRxcheck b2 => obtain ⟨v, -, h⟩ := withVersion_next h; cases h; exact .of_returns s _
  | lenV2F0C0 | lenV2F0C1 | lenV2F0C2 | lenV2F0C3 | lenV2F0C4 | lenV2F0C5 | lenV2F0C6 | lenV2F0C7
  | lenV2F1C0 | lenV2F1C1 | lenV2F1C2 | lenV2F1C3 | lenV2F1C4 | lenV2F1C5 | lenV2F1C6 | lenV2F1C7
  | lenV1F0 | lenV1xF0 | lenV1F1 | lenV1xF1 | crcAdd | crcResult | ackpolV1 | ackpolV1x | ackpolV2
  | ackEnabled => cases h; exact .of_returns s _

/-- START writes the data registers only. -/
theorem execSessionStart_keeps {s t : State} (h : execSessionStart s = .next t) :
    t.config = s.config ∧ t.controls = s.controls ∧ t.surroundings = s.surroundings ∧ t.cancel = s.cancel := by
  rcases execSessionStart_next h with ⟨-, -, ht⟩ | ht <;> subst ht <;> exact ⟨rfl, rfl, rfl, rfl⟩

/-- Outside IDLE START does nothing (42 R127). -/
theorem execSessionStart_of_run {s t : State} (hm : s.mode = .run) (h : execSessionStart s = .next t) : t = s := by
  rcases execSessionStart_next h with ⟨hi, -, -⟩ | ht
  · cases hm.symm.trans hi
  · exact ht

/-- Settles O35: operations advance or begin a session, and host actions write the control registers in IDLE
only. -/
theorem configurationFrozen : Obligations.ConfigurationFrozen := by
  refine ⟨fun i s t h => ?_, fun s t h => ?_⟩
  · by_cases hi : i = .sessionStart
    · subst hi
      exact execSessionStart_keeps h
    · obtain ⟨hconfig, hcontrols, hsurr, hcancel, -⟩ := exec_advances hi h
      exact ⟨hconfig, hcontrols, hsurr, hcancel⟩
  · rcases step_next h with ⟨-, hi⟩ | ⟨rest, -, hi⟩ | ⟨rest, -, hs⟩ | ⟨r, rest, hr, -, ht⟩
    · have hadv := execIter_advances hi
      exact ⟨hadv.config, fun _ => ⟨fun _ => hadv.controls, hadv.cancel.trans⟩⟩
    · have hadv := execIter_advances hi
      exact ⟨hadv.config, fun _ => ⟨fun _ => hadv.controls, hadv.cancel.trans⟩⟩
    · obtain ⟨hconfig, hcontrols, -, hcancel⟩ := execSessionStart_keeps hs
      exact ⟨hconfig, fun _ => ⟨fun _ => hcontrols, hcancel.trans⟩⟩
    · subst ht
      refine ⟨?_, fun hreset => ?_⟩
      · by_cases hne : r = .reset
        · subst hne; rfl
        · exact (hostAct_keeps hne _).config
      · have hkeeps := hostAct_keeps (ne_reset_of_nextIsReset hr hreset) { s with inbox := rest }
        exact ⟨hkeeps.controls, hkeeps.cancel⟩

/-- Settles O36: operations advance, START does nothing in RUN, and a host action other than a reset leaves the
cursor where it is. -/
theorem cursorNeverMovesBack : Obligations.CursorNeverMovesBack := by
  refine ⟨fun i s t hi h => (exec_advances hi h).pos, fun s t h hm hreset => ?_⟩
  rcases step_next h with ⟨-, hi⟩ | ⟨rest, -, hi⟩ | ⟨rest, -, hs⟩ | ⟨r, rest, hr, -, ht⟩
  · exact (execIter_advances hi).pos
  · exact (execIter_advances hi).pos
  · rw [execSessionStart_of_run (s := { s with inbox := rest }) hm hs]
  · subst ht
    exact (hostAct_keeps (ne_reset_of_nextIsReset hr hreset) { s with inbox := rest }).pos.ge

end Sys2Proof.Machine
end

section
/-! PROOFS, family 10_state.md: the NODE_ACK table as data, and who reads ACK_VALUE. -/

namespace Sys2Proof.Machine

/-! The NODE_ACK table (10 R24, 20 R59). -/

theorem Memory.wfAbove_cons {size k lo : Nat} {v : Byte} {m : List Host.Cell} :
    Memory.wfAbove size ((k, v) :: m) lo = true ↔
      lo ≤ k ∧ k < size ∧ v ≠ nodeDefault ∧ v.toNat < 4 ∧ Memory.wfAbove size m (k + 1) = true := by
  simp only [Memory.wfAbove, Bool.and_eq_true, decide_eq_true_eq, bne_iff_ne, and_assoc]

theorem Memory.read_cons_same (k : Nat) (v : Byte) (m : List Host.Cell) : Memory.read ((k, v) :: m) k = v := by
  simp [Memory.read]

theorem Memory.read_cons_of_ne {k x : Nat} (h : x ≠ k) (v : Byte) (m : List Host.Cell) :
    Memory.read ((k, v) :: m) x = Memory.read m x := by
  simp [Memory.read, h.symm]

/-- A cell put in front of a table that has none at its address; the default takes no cell. -/
theorem Memory.read_put {m : List Host.Cell} {a : Nat} (h : Memory.read m a = nodeDefault) (b : Byte) (x : Nat) :
    Memory.read (if b = nodeDefault then m else (a, b) :: m) x = if x = a then b else Memory.read m x := by
  by_cases hx : x = a
  · subst hx
    split
    · rw [h, if_pos rfl]; exact ‹b = nodeDefault›.symm
    · rw [Memory.read_cons_same, if_pos rfl]
  · rw [if_neg hx]
    split
    · rfl
    · exact Memory.read_cons_of_ne hx b m

/-- A read after a write, at any address. -/
theorem Memory.read_write {size lo : Nat} {m : List Host.Cell} (h : Memory.wfAbove size m lo = true) (a x : Nat)
    (b : Byte) : Memory.read (Memory.write m a b) x = if x = a then b else Memory.read m x := by
  induction m generalizing lo with
  | nil => exact Memory.read_put rfl b x
  | cons c m ih =>
    obtain ⟨k, v⟩ := c
    obtain ⟨-, hsize, hv, h4, htail⟩ := Memory.wfAbove_cons.1 h
    rw [Memory.write]
    split
    · rename_i hk
      by_cases hx : x = k
      · rw [hx, Memory.read_cons_same, Memory.read_cons_same, if_neg (Nat.ne_of_lt hk)]
      · rw [Memory.read_cons_of_ne hx, Memory.read_cons_of_ne hx, ih htail]
    · split
      · rename_i hk
        subst hk
        rw [Memory.read_put (Memory.read_below htail (Nat.lt_succ_self k))]
        split
        · rfl
        · rw [Memory.read_cons_of_ne ‹_›]
      · have hcell : Memory.wfAbove size ((k, v) :: m) k = true :=
          Memory.wfAbove_cons.2 ⟨Nat.le_refl k, hsize, hv, h4, htail⟩
        exact Memory.read_put (Memory.read_below hcell (by omega)) b x

/-- Every byte of a canonical table has the two bits of an entry only. -/
theorem Memory.read_lt {size lo : Nat} {m : List Host.Cell} (h : Memory.wfAbove size m lo = true) (x : Nat) :
    (Memory.read m x).toNat < 4 := by
  induction m generalizing lo with
  | nil => rw [Memory.read]; decide
  | cons c m ih =>
    obtain ⟨k, v⟩ := c
    obtain ⟨-, -, -, hv, htail⟩ := Memory.wfAbove_cons.1 h
    by_cases hx : x = k
    · rw [hx, Memory.read_cons_same]; exact hv
    · rw [Memory.read_cons_of_ne hx]; exact ih htail

/-- Past the table's end a canonical table reads as the default. -/
theorem Memory.read_past {size lo : Nat} {m : List Host.Cell} (h : Memory.wfAbove size m lo = true) {x : Nat}
    (hx : size ≤ x) : Memory.read m x = nodeDefault := by
  induction m generalizing lo with
  | nil => rfl
  | cons c m ih =>
    obtain ⟨k, v⟩ := c
    obtain ⟨-, hk, -, -, htail⟩ := Memory.wfAbove_cons.1 h
    rw [Memory.read_cons_of_ne (by omega)]
    exact ih htail

/-- A table that reads as the default at the address of another's first cell does not read as that one does. -/
theorem Memory.read_first_ne {size lo k : Nat} {v : Byte} {m m' : List Host.Cell}
    (h : Memory.wfAbove size ((k, v) :: m) lo = true) (hm' : Memory.read m' k = nodeDefault) :
    Memory.read ((k, v) :: m) k ≠ Memory.read m' k := by
  obtain ⟨-, -, hv, -, -⟩ := Memory.wfAbove_cons.1 h
  rwa [Memory.read_cons_same, hm']

/-- Canonical tables that read the same are the same list of cells. -/
theorem Memory.ext_of_read {size lo : Nat} {m m' : List Host.Cell} (h : Memory.wfAbove size m lo = true)
    (h' : Memory.wfAbove size m' lo = true) (hr : ∀ x, Memory.read m x = Memory.read m' x) : m = m' := by
  induction m generalizing lo m' with
  | nil =>
    cases m' with
    | nil => rfl
    | cons c m' => exact absurd (hr c.1).symm (Memory.read_first_ne h' rfl)
  | cons c m ih =>
    obtain ⟨k, v⟩ := c
    cases m' with
    | nil => exact absurd (hr k) (Memory.read_first_ne h rfl)
    | cons c' m' =>
      obtain ⟨k', v'⟩ := c'
      obtain ⟨-, hk, hv, h4, htail⟩ := Memory.wfAbove_cons.1 h
      obtain ⟨-, hk', hv', h4', htail'⟩ := Memory.wfAbove_cons.1 h'
      have hcell := Memory.wfAbove_cons.2 ⟨Nat.le_refl k, hk, hv, h4, htail⟩
      have hcell' := Memory.wfAbove_cons.2 ⟨Nat.le_refl k', hk', hv', h4', htail'⟩
      rcases Nat.lt_trichotomy k k' with hlt | rfl | hlt
      · exact absurd (hr k) (Memory.read_first_ne h (Memory.read_below hcell' hlt))
      · have hvv : v = v' := by simpa [Memory.read_cons_same] using hr k
        have htails : ∀ x, Memory.read m x = Memory.read m' x := by
          intro x
          by_cases hx : x = k
          · rw [hx, Memory.read_below htail (Nat.lt_succ_self k), Memory.read_below htail' (Nat.lt_succ_self k)]
          · simpa [Memory.read_cons_of_ne hx] using hr x
        rw [hvv, ih htail htail' htails]
      · exact absurd (hr k').symm (Memory.read_first_ne h' (Memory.read_below hcell hlt))

/-- An entry's byte is determined by its two bits. -/
theorem NodeEntry.ofByte_inj {x y : Byte} (hx : x.toNat < 4) (hy : y.toNat < 4)
    (h : NodeEntry.ofByte x = NodeEntry.ofByte y) : x = y := by
  have bits : ∀ n m : Fin 4,
      NodeEntry.ofByte (BitVec.ofNat 8 n) = NodeEntry.ofByte (BitVec.ofNat 8 m) → n = m := by decide
  have hxy := congrArg Fin.val (bits ⟨x.toNat, hx⟩ ⟨y.toNat, hy⟩ (by simpa using h))
  exact BitVec.eq_of_toNat_eq hxy

/-- Settles O32: the read after a write, and the cells from what every address reads. -/
theorem nodeTableReadAfterWrite : Obligations.NodeTableReadAfterWrite := by
  intro size
  refine ⟨fun m a b e h => ?_, fun m m' hsize h h' hr => ?_⟩
  · rw [nodeEntry, Memory.read_write h]
    by_cases hb : b = a
    · simp [hb]
    · have hne : b.toNat ≠ a.toNat := fun e => hb (BitVec.eq_of_toNat_eq e)
      simp [hb, hne, nodeEntry]
  · refine Memory.ext_of_read h h' fun x => ?_
    by_cases hx : x < 256
    · have hentry := hr (BitVec.ofNat 8 x)
      simp only [nodeEntry, BitVec.toNat_ofNat, Nat.mod_eq_of_lt hx] at hentry
      exact NodeEntry.ofByte_inj (Memory.read_lt h x) (Memory.read_lt h' x) hentry
    · rw [Memory.read_past h (by omega), Memory.read_past h' (by omega)]

/-! ACK_VALUE (10 R23, 45 R162). -/

/-- The state with another `ACK_VALUE`. -/
def State.withAckValue (s : State) (b : Byte) : State := { s with ackValue := b }

@[simp] theorem State.withAckValue_protocol (s : State) (b : Byte) : (s.withAckValue b).protocol = s.protocol := rfl

/-- From this state on, the operation's outcome does not depend on `ACK_VALUE`. -/
def IgnoresAckValue (b : Byte) (op : State → Outcome) (s : State) : Prop :=
  op (s.withAckValue b) = mapNext (·.withAckValue b) (op s)

section

variable {s : State} {b : Byte}

theorem withVersion_ackValue {k k' : Version → Outcome}
    (h : ∀ v, s.protocol = some v → k' v = mapNext (·.withAckValue b) (k v)) :
    (s.withAckValue b).withVersion k' = mapNext (·.withAckValue b) (s.withVersion k) := by
  cases hv : s.protocol with
  | none => rw [withVersion_reserved hv, withVersion_reserved (by simpa using hv)]; rfl
  | some v => rw [withVersion_of_protocol hv, withVersion_of_protocol (by simpa using hv)]; exact h v hv

theorem withTiming_ackValue {k k' : Version → Nat → Outcome}
    (h : ∀ v n, k' v n = mapNext (·.withAckValue b) (k v n)) :
    (s.withAckValue b).withTiming k' = mapNext (·.withAckValue b) (s.withTiming k) := by
  refine withVersion_ackValue fun v _ => ?_
  change (if 2 ≤ s.spb then _ else _) = _
  split
  · exact h v _
  · rfl

theorem starve_ackValue (c : Cursor) : (s.withAckValue b).starve c = (s.starve c).withAckValue b := by
  unfold State.starve
  change (if s.streamEnded = true then _ else _) = _
  split <;> rfl

theorem onWire_ackValue {α : Type} (w : Wire α) {k : α → State → Outcome}
    (h : ∀ a c, IgnoresAckValue b (k a) (s.atCursor c)) :
    (s.withAckValue b).onWire w k = mapNext (·.withAckValue b) (s.onWire w k) := by
  cases w with
  | done a c => exact h a c
  | exhausted c => exact congrArg Host.Outcome.next (starve_ackValue c)

theorem absorb_ackValue (v : Version) (x : Byte) :
    (s.withAckValue b).absorb v x = (s.absorb v x).withAckValue b := by
  unfold State.absorb
  change (if s.config.crcPairs.get v = true then _ else _) = _
  split <;> rfl

theorem acceptBreak_ackValue (u : BreakRec) :
    (s.withAckValue b).acceptBreak u = (s.acceptBreak u).withAckValue b := by
  unfold State.acceptBreak
  split <;> rfl

/-- The common end of the steps that absorb a byte, emit its unit and go on. -/
theorem absorbed_ackValue {s1 s2 : State} (h : s2 = s1.withAckValue b) (v : Version) (x : Byte) (u : FrameUnit)
    (st : FrameState) :
    ((s2.absorb v x).emitUnit u).goto st = (((s1.absorb v x).emitUnit u).goto st).withAckValue b := by
  rw [h, absorb_ackValue]
  rfl

/-! The state steps. -/

theorem headerid1_ackValue (r : ByteRec) : IgnoresAckValue b (execStHeaderid1 r) s :=
  withVersion_ackValue fun v _ => congrArg Host.Outcome.next (absorbed_ackValue (by rfl) v _ _ _)

theorem headerid2_ackValue (r : ByteRec) : IgnoresAckValue b (execStHeaderid2 r) s :=
  withVersion_ackValue fun v _ => congrArg Host.Outcome.next (absorbed_ackValue (by rfl) v _ _ _)

theorem instr1_ackValue (r : ByteRec) : IgnoresAckValue b (execStInstr1 r) s :=
  withVersion_ackValue fun v _ => congrArg Host.Outcome.next (absorbed_ackValue (by rfl) v _ _ _)

theorem instr2_ackValue (r : ByteRec) : IgnoresAckValue b (execStInstr2 r) s :=
  withVersion_ackValue fun v _ => congrArg Host.Outcome.next (absorbed_ackValue (by rfl) v _ _ _)

theorem data_ackValue (r : ByteRec) : IgnoresAckValue b (execStData r) s :=
  withVersion_ackValue fun v _ => congrArg Host.Outcome.next (absorbed_ackValue (by rfl) v _ _ _)

/-- The accepted byte is `ACK_VALUE` in V2 only (45 R162). -/
theorem acceptedValue_ackValue {v : Version} (hv : v ≠ .v2) :
    acceptedValue (s.withAckValue b) v = acceptedValue s v := by
  cases v with
  | v1 => rfl
  | v1Extended => rfl
  | v2 => exact absurd rfl hv

theorem crc2_ackValue (hp : s.protocol ≠ some .v2) (r : ByteRec) : IgnoresAckValue b (execStCrc2 r) s := by
  refine withVersion_ackValue fun v hv => congrArg Host.Outcome.next ?_
  have hne : v ≠ .v2 := fun e => hp (e ▸ hv)
  rw [acceptedValue_ackValue hne]
  change (if expectAck s v s.id1 s.id2 = true then _ else _) = _
  split <;> rfl

/-! The decode-unit step. -/

theorem withBreak_ackValue {k : BreakRec → State → Outcome} (hk : ∀ u s, IgnoresAckValue b (k u) s) :
    (s.withAckValue b).withBreak k = mapNext (·.withAckValue b) (s.withBreak k) := by
  unfold State.withBreak
  change (if s.pendingBreak = true then _ else _) = _
  split
  · exact hk s.pendingRec s.clearPending
  · exact withTiming_ackValue fun v n => onWire_ackValue _ fun u c => hk u (s.atCursor c)

theorem withByte_ackValue {k : ByteRec → State → Outcome} (hk : ∀ r c, IgnoresAckValue b (k r) (s.atCursor c)) :
    (s.withAckValue b).withByte k = mapNext (·.withAckValue b) (s.withByte k) := by
  refine withTiming_ackValue fun v n => onWire_ackValue _ fun a c => ?_
  cases a with
  | byte r => exact hk r c
  | breakField f => rfl

theorem unitStep_ackValue (hp : s.protocol ≠ some .v2) : IgnoresAckValue b unitStep s := by
  have hbreak : ∀ u s, IgnoresAckValue b (execStNoframe u) s := fun u _ =>
    congrArg Host.Outcome.next (acceptBreak_ackValue u)
  have hst : (s.withAckValue b).state = s.state := rfl
  unfold IgnoresAckValue unitStep
  rw [hst]
  cases s.state with
  | noFrame => exact withBreak_ackValue hbreak
  | headerBreak => exact withBreak_ackValue hbreak
  | headerId1 => exact withByte_ackValue fun r _ => headerid1_ackValue r
  | headerId2 => exact withByte_ackValue fun r _ => headerid2_ackValue r
  | instructionByte1 => exact withByte_ackValue fun r _ => instr1_ackValue r
  | instructionByte2 => exact withByte_ackValue fun r _ => instr2_ackValue r
  | dataByte => exact withByte_ackValue fun r _ => data_ackValue r
  | crcByte1 => exact withByte_ackValue fun _ _ => rfl
  | crcByte2 => exact withByte_ackValue fun r c => crc2_ackValue (s := s.atCursor c) hp r
  | ackByte => exact withByte_ackValue fun _ _ => rfl

theorem iter_ackValue (hp : s.protocol ≠ some .v2) : IgnoresAckValue b execIter s := by
  have hmode : (s.withAckValue b).mode = s.mode := rfl
  have hpoll : ((s.withAckValue b).cancel && !(s.withAckValue b).waiting) = (s.cancel && !s.waiting) := rfl
  unfold IgnoresAckValue execIter
  rw [hmode, hpoll]
  cases s.mode with
  | idle => rfl
  | done => rfl
  | run =>
    dsimp only
    split
    · rfl
    · exact unitStep_ackValue hp

theorem start_ackValue : IgnoresAckValue b execSessionStart s := by
  have hmode : (s.withAckValue b).mode = s.mode := rfl
  have hlegal : (s.withAckValue b).legalConfig = s.legalConfig := rfl
  unfold IgnoresAckValue execSessionStart
  rw [hmode, hlegal]
  cases s.mode with
  | idle => dsimp only; split <;> rfl
  | run => rfl
  | done => rfl

theorem len_ackValue (w : BitVec 2) (id1 id2 : Byte) : IgnoresAckValue b (execLen w id1 id2) s := by
  have hconfig : (s.withAckValue b).config = s.config := rfl
  unfold IgnoresAckValue execLen
  rw [hconfig]
  cases Version.ofCode s.config w <;> rfl

end

/-- Settles O31: of what an operation reads, only the accepted byte of V2 is `ACK_VALUE`, and no operation writes the
register. -/
theorem ackValueOnlyMattersInV2 : Obligations.AckValueOnlyMattersInV2 := by
  intro i s b hp hi
  change IgnoresAckValue b (exec i) s
  cases i with
  | ackpolV2 id1 id2 => exact absurd rfl (hi id1 id2)
  | iter => exact iter_ackValue hp
  | brkScan => exact withTiming_ackValue fun _ _ => onWire_ackValue _ fun _ _ => by rfl
  | byteRead => exact withTiming_ackValue fun _ _ => onWire_ackValue _ fun _ _ => by rfl
  | stNoframe u | stHeaderbreak u => exact congrArg Host.Outcome.next (acceptBreak_ackValue u)
  | stHeaderid1 r => exact headerid1_ackValue r
  | stHeaderid2 r => exact headerid2_ackValue r
  | stInstr1 r => exact instr1_ackValue r
  | stInstr2 r => exact instr2_ackValue r
  | stData r => exact data_ackValue r
  | stCrc2 r => exact crc2_ackValue hp r
  | sessionStart => exact start_ackValue
  | len w id1 id2 => exact len_ackValue w id1 id2
  | crcRxcheck b2 => exact withVersion_ackValue fun _ _ => rfl
  | stCrc1 | stAck | missingByte | sessionCancel | sessionExhaust | instrV2 | crcReset | crcAbsorbV1 | crcAbsorbV2
  | lenV2F0C0 | lenV2F0C1 | lenV2F0C2 | lenV2F0C3 | lenV2F0C4 | lenV2F0C5 | lenV2F0C6 | lenV2F0C7
  | lenV2F1C0 | lenV2F1C1 | lenV2F1C2 | lenV2F1C3 | lenV2F1C4 | lenV2F1C5 | lenV2F1C6 | lenV2F1C7
  | lenV1F0 | lenV1xF0 | lenV1F1 | lenV1xF1 | crcAdd | crcResult | ackpolV1 | ackpolV1x | ackEnabled => rfl

end Sys2Proof.Machine
end

section
/-! PROOFS, family 20_memory.md: bit timing, and what a step does that runs out of samples. -/

namespace Sys2Proof.Machine

/-! Rounding (20 R48). -/

/-- The threshold of `rnd`: `n` bits are counted from `n - 1/2` bit periods on. -/
theorem le_rnd_iff {spb n : Nat} (d : Nat) (hspb : 0 < spb) (hn : 1 ≤ n) :
    n ≤ rnd spb d ↔ (2 * n - 1) * spb ≤ 2 * d := by
  obtain ⟨k, rfl⟩ := Nat.exists_eq_add_of_le' hn
  have hdiv : k + 1 ≤ rnd spb d ↔ (k + 1) * (2 * spb) ≤ 2 * d + spb := Nat.le_div_iff_mul_le (by omega)
  have hwhole : (k + 1) * (2 * spb) = 2 * (k * spb) + 2 * spb := by ring
  have hhalf : (2 * (k + 1) - 1) * spb = 2 * (k * spb) + spb := by
    rw [show 2 * (k + 1) - 1 = 2 * k + 1 by omega]
    ring
  rw [hdiv, hwhole, hhalf]
  omega

/-- A run is at most half a bit longer than the bits it counts as: one more bit is past the threshold. -/
theorem le_rnd_mul_add_half {spb : Nat} (d : Nat) (hspb : 0 < spb) : d ≤ rnd spb d * spb + spb / 2 := by
  have hlt : 2 * d < (2 * (rnd spb d + 1) - 1) * spb :=
    Nat.lt_of_not_le fun h => Nat.not_succ_le_self _ ((le_rnd_iff d hspb (by omega)).2 h)
  have hbits : (2 * (rnd spb d + 1) - 1) * spb = 2 * (rnd spb d * spb) + spb := by
    rw [show 2 * (rnd spb d + 1) - 1 = 2 * rnd spb d + 1 by omega]
    ring
  omega

/-- Settles O40: the threshold of `rnd`, and the run that it leaves short of one more bit. -/
theorem roundingThreshold : Obligations.RoundingThreshold := by
  intro p spb d n hspb
  refine ⟨le_rnd_iff d hspb, fun hdiv => ?_⟩
  rw [half, hdiv]
  exact le_rnd_mul_add_half d hspb

/-! A step without a unit (20 R47, 93 U3, U7). -/

theorem decodeCalls_of_markers {m : List SinkCall} (hm : MarkersOnly m) : decodeCalls m = [] := by
  refine List.filter_eq_nil_iff.2 fun x hx => ?_
  obtain ⟨p, k, rfl⟩ := hm x hx
  simp [SinkCall.isMarker]

/-- Under a legal configuration only exhaustion keeps a wire operation from handing on a unit. -/
theorem wireDone_eq_none {α : Type} {s : State} {v : Version} {w : Nat → Version → Cursor → Wire α}
    {f : α → WireUnit} (hv : s.protocol = some v) (hs : 2 ≤ s.spb) (h : s.wireDone w f = none) :
    ∃ c, w s.spb v s.cursor = .exhausted c := by
  simp only [State.wireDone, hv, if_pos hs] at h
  cases hw : w s.spb v s.cursor with
  | done a c => simp [hw] at h
  | exhausted c => exact ⟨c, rfl⟩

/-- A state that consumes a break starves when none is pending and the scan hands on nothing. -/
theorem withBreak_starved {s : State} {v : Version} (k : BreakRec → State → Outcome) (hv : s.protocol = some v)
    (hs : 2 ≤ s.spb) (hpend : ¬ s.pendingBreak = true)
    (h : s.wireDone (brkScan s.config s.samples) .brk = none) :
    ∃ c, s.cursor.Forward c ∧ s.withBreak k = .next (s.starve c) := by
  obtain ⟨c, hw⟩ := wireDone_eq_none hv hs h
  refine ⟨c, (brkScan_forward _ _ _ _ _).of_exhausted hw, ?_⟩
  rw [State.withBreak, if_neg hpend, withTiming_of_legal hv hs, hw, onWire_exhausted]

/-- A state that consumes a byte starves when the read hands on nothing. -/
theorem withByte_starved {s : State} {v : Version} (k : ByteRec → State → Outcome) (hv : s.protocol = some v)
    (hs : 2 ≤ s.spb) (h : s.wireDone (byteRead s.config s.samples) ReadResult.toUnit = none) :
    ∃ c, s.cursor.Forward c ∧ s.withByte k = .next (s.starve c) := by
  obtain ⟨c, hw⟩ := wireDone_eq_none hv hs h
  refine ⟨c, (byteRead_forward _ _ _ _ _).of_exhausted hw, ?_⟩
  rw [State.withByte, withTiming_of_legal hv hs, hw, onWire_exhausted]

/-- Where the wire side delivers no unit the unit step starves. -/
theorem unitStep_starved {s : State} (hp : s.protocol ≠ none) (hs : 2 ≤ s.spb) (h : wireUnit s = none) :
    ∃ c, s.cursor.Forward c ∧ unitStep s = .next (s.starve c) := by
  obtain ⟨v, hv⟩ := Option.ne_none_iff_exists'.1 hp
  unfold wireUnit at h
  unfold unitStep
  cases hst : s.state <;> rw [hst] at h
  case noFrame | headerBreak =>
    dsimp only at h
    split at h
    · cases h
    · exact withBreak_starved _ hv hs ‹_› h
  case headerId1 | headerId2 | instructionByte1 | instructionByte2 | dataByte | crcByte1 | crcByte2 | ackByte =>
    exact withByte_starved _ hv hs h

/-- ITER in RUN without a cancellation poll that sees one is the unit step (42 R110; log 25). -/
theorem execIter_of_run {s : State} (hm : s.mode = .run) (hc : s.cancel = false ∨ s.waiting = true) :
    execIter s = unitStep s := by
  have hpoll : (s.cancel && !s.waiting) = false := by
    rcases hc with hc | hc <;> simp [hc]
  simp only [execIter, hm, hpoll, Bool.false_eq_true, if_false]

/-- Settles O6: the unit step starves, which on an ended stream terminates the session after the markers made so
far, and on a live one sets the waiting bit. -/
theorem exhaustionEndsOrWaits : Obligations.ExhaustionEndsOrWaits := by
  intro s hm hc hp hs hw
  obtain ⟨c, ⟨-, m, htrace, hmarkers⟩, hstep⟩ := unitStep_starved hp hs hw
  have hiter : exec .iter s = .next (s.starve c) := (execIter_of_run hm hc).trans hstep
  rcases starve_cases s c with ⟨hended, hstarve⟩ | ⟨hlive, hstarve⟩
  · refine ⟨fun _ => ⟨_, _, c.trace, by rw [hiter, hstarve]; rfl, ?_⟩, fun hlive => by simp [hended] at hlive⟩
    have hmade : c.trace = m := htrace
    exact hmade ▸ decodeCalls_of_markers hmarkers
  · exact ⟨fun hended => by simp [hlive] at hended, fun _ => by rw [hiter, hstarve]⟩

end Sys2Proof.Machine
end

section
/-! PROOFS, family 20_memory.md: sink calls are only appended. -/

namespace Sys2Proof.Machine

/-! Every operation appends to the sink (20 R50, R58). -/

theorem sink_prefix_atCursor (s : State) (c : Cursor) : s.sink <+: (s.atCursor c).sink := by simp

theorem sink_prefix_starve (s : State) (c : Cursor) : s.sink <+: (s.starve c).sink := by
  rcases starve_cases s c with ⟨-, h⟩ | ⟨-, h⟩ <;> simp [h]

theorem sink_prefix_acceptBreak (s : State) (u : BreakRec) : s.sink <+: (s.acceptBreak u).sink := by
  unfold State.acceptBreak
  split <;> simp

theorem ByteStep.sink_prefix {r : ByteRec} {s t : State} (h : ByteStep r s t) : s.sink <+: t.sink := by
  cases h.calls with
  | within u _ hsink => exact hsink ▸ List.prefix_append _ _
  | last u _ hsink => exact hsink ▸ List.prefix_append _ _

theorem UnitStep.sink_prefix {s t : State} (h : UnitStep s t) : s.sink <+: t.sink := by
  cases h with
  | starved c _ ht => exact ht ▸ sink_prefix_starve s c
  | pendingBreak _ _ ht => exact ht ▸ sink_prefix_acceptBreak s.clearPending _
  | scannedBreak _ _ u c _ _ _ _ ht => exact ht ▸ (sink_prefix_atCursor s c).trans (sink_prefix_acceptBreak _ u)
  | missingByte f c _ _ _ ht => exact ht ▸ (sink_prefix_atCursor s c).trans (by simp)
  | byte r c _ _ _ h => exact (sink_prefix_atCursor s c).trans h.sink_prefix

theorem execIter_sink_prefix {s t : State} (h : execIter s = .next t) : s.sink <+: t.sink := by
  rcases execIter_next h with ⟨-, ht⟩ | ⟨-, -, -, ht⟩ | ⟨-, -, hu⟩
  · exact ht ▸ List.prefix_rfl
  · exact ht ▸ List.prefix_rfl
  · exact (unitStep_next hu).sink_prefix

/-- A wire operation called alone hands its markers to the sink, or starves. -/
theorem onWire_returns_sink_prefix {α : Type} {s t : State} {w : Wire α} {f : α → Result}
    (h : s.onWire w (fun a s => .next (s.returns (f a))) = .next t) : s.sink <+: t.sink := by
  rcases onWire_next h with ⟨a, c, -, h⟩ | ⟨c, -, ht⟩
  · cases h
    exact sink_prefix_atCursor s c
  · exact ht ▸ sink_prefix_starve s c

theorem execBrkScan_sink_prefix {s t : State} (h : execBrkScan s = .next t) : s.sink <+: t.sink := by
  obtain ⟨v, -, -, h⟩ := withTiming_next h
  exact onWire_returns_sink_prefix h

theorem execByteRead_sink_prefix {s t : State} (h : execByteRead s = .next t) : s.sink <+: t.sink := by
  obtain ⟨v, -, -, h⟩ := withTiming_next h
  exact onWire_returns_sink_prefix h

theorem execLen_sink_prefix {w : BitVec 2} {id1 id2 : Byte} {s t : State} (h : execLen w id1 id2 s = .next t) :
    s.sink <+: t.sink := by
  unfold execLen at h
  split at h
  · cases h; exact List.prefix_rfl
  · cases h

theorem exec_sink_prefix {i : Instr} {s t : State} (h : exec i s = .next t) : s.sink <+: t.sink := by
  cases i with
  | iter => exact execIter_sink_prefix h
  | brkScan => exact execBrkScan_sink_prefix h
  | byteRead => exact execByteRead_sink_prefix h
  | stNoframe u | stHeaderbreak u => cases h; exact sink_prefix_acceptBreak s u
  | stHeaderid1 | stHeaderid2 | stInstr1 | stInstr2 | stData =>
    obtain ⟨v, -, h⟩ := withVersion_next h; cases h; simp
  | stCrc2 => obtain ⟨v, -, h⟩ := withVersion_next h; cases h; split <;> simp
  | stCrc1 | stAck | missingByte => cases h; simp
  | sessionStart => exact (execSessionStart_sink h).symm ▸ List.prefix_rfl
  | crcRxcheck => obtain ⟨v, -, h⟩ := withVersion_next h; cases h; exact List.prefix_rfl
  | len w id1 id2 => exact execLen_sink_prefix h
  | sessionCancel | sessionExhaust | instrV2 | crcReset | crcAbsorbV1 | crcAbsorbV2
  | lenV2F0C0 | lenV2F0C1 | lenV2F0C2 | lenV2F0C3 | lenV2F0C4 | lenV2F0C5 | lenV2F0C6 | lenV2F0C7
  | lenV2F1C0 | lenV2F1C1 | lenV2F1C2 | lenV2F1C3 | lenV2F1C4 | lenV2F1C5 | lenV2F1C6 | lenV2F1C7
  | lenV1F0 | lenV1xF0 | lenV1F1 | lenV1xF1 | crcAdd | crcResult | ackpolV1 | ackpolV1x | ackpolV2
  | ackEnabled => cases h; exact List.prefix_rfl

/-- Settles O37: every operation appends to the sink, and host actions make no call. -/
theorem sinkCallsOnlyAppended : Obligations.SinkCallsOnlyAppended := by
  refine ⟨fun i s t h => exec_sink_prefix h, fun s t h => ?_⟩
  rcases step_next h with ⟨-, hi⟩ | ⟨rest, -, hi⟩ | ⟨rest, -, hs⟩ | ⟨r, rest, -, -, ht⟩
  · exact execIter_sink_prefix hi
  · exact execIter_sink_prefix (s := { s with inbox := rest }) hi
  · exact (execSessionStart_sink hs).symm ▸ List.prefix_rfl
  · rw [ht, hostAct_sink]

end Sys2Proof.Machine
end

section
/-! PROOFS, family 20_memory.md: samples that come after a wire operation has returned. -/

namespace Sys2Proof.Machine

/-- Where the first operation completes the second completes with the same value and cursor. -/
def Wire.Persists {α : Type} (w w' : Wire α) : Prop := ∀ a c, w = .done a c → w' = .done a c

theorem Wire.Persists.refl {α : Type} (w : Wire α) : w.Persists w := fun _ _ h => h

theorem Wire.Persists.bind {α β : Type} {w w' : Wire α} {f f' : α → Cursor → Wire β} (hw : w.Persists w')
    (hf : ∀ a c, (f a c).Persists (f' a c)) : (w.bind f).Persists (w'.bind f') := by
  intro b c h
  obtain ⟨a, c1, hdone, h⟩ := Wire.bind_eq_done h
  rw [hw a c1 hdone, Wire.bind_done]
  exact hf a c1 b c h

theorem Wire.Persists.ite {α : Type} {p : Prop} [Decidable p] {w w' x x' : Wire α} (hw : w.Persists w')
    (hx : x.Persists x') : (if p then w else x).Persists (if p then w' else x') := by
  split
  · exact hw
  · exact hx

section
variable (p : Config) (S more : List Sample) (spb : Nat) (v : Version)

/-! The primitives on a longer stream (20 R42 to R45). -/

theorem firstOther_append {b : Sample} {l : List Sample} {q r : Nat} (h : firstOther b l q = some r) :
    firstOther b (l ++ more) q = some r := by
  induction l generalizing q with
  | nil => cases h
  | cons x xs ih =>
    simp only [firstOther, List.cons_append] at h ⊢
    split at h
    · rw [if_pos ‹_›]; exact ih h
    · rw [if_neg ‹_›]; exact h

theorem nextEdge_append {pos q : Nat} (h : nextEdge S pos = some q) : nextEdge (S ++ more) pos = some q := by
  obtain ⟨hlt, hq⟩ := nextEdge_lt h
  unfold nextEdge at h ⊢
  rw [List.drop_append_of_le_length (by omega)]
  split at h
  · cases h
  · rename_i b rest hdrop
    rw [hdrop]
    exact firstOther_append more h

theorem level_persists (c : Cursor) : (level S c).Persists (level (S ++ more) c) := by
  intro b c' h
  obtain ⟨rfl, hb⟩ := level_eq_done h
  rw [level, List.getElem?_append_left (List.getElem?_eq_some_iff.1 hb).1, hb]

theorem advance_persists (n : Nat) (c : Cursor) : (advance S n c).Persists (advance (S ++ more) n c) := by
  intro u c' h
  obtain ⟨rfl, hlt⟩ := advance_eq_done h
  exact advance_of_lt (by rw [List.length_append]; omega)

theorem advanceToNextEdge_persists (c : Cursor) :
    (advanceToNextEdge S c).Persists (advanceToNextEdge (S ++ more) c) := by
  intro u c' h
  obtain ⟨q, hq, rfl⟩ := advanceToNextEdge_eq_done h
  rw [advanceToNextEdge, nextEdge_append S more hq]

theorem samplesUntilNextEdge_persists (c : Cursor) :
    (samplesUntilNextEdge S c).Persists (samplesUntilNextEdge (S ++ more) c) := by
  intro d c' h
  obtain ⟨q, hq, rfl, rfl⟩ := samplesUntilNextEdge_eq_done h
  rw [samplesUntilNextEdge, nextEdge_append S more hq]

/-! BRK_SCAN on a longer stream. -/

/-- The longer stream allows the search more turns. -/
theorem brkSearch_persists (m : Nat) {turns turns' : Nat} (hle : turns ≤ turns') (toggling : Bool) (c : Cursor) :
    (brkSearch S spb m turns toggling c).Persists (brkSearch (S ++ more) spb m turns' toggling c) := by
  induction turns generalizing turns' toggling c with
  | zero => intro a c' h; cases h
  | succ turns ih =>
    obtain ⟨k, rfl⟩ := Nat.exists_eq_add_of_le' (Nat.le_trans (Nat.le_add_left 1 turns) hle)
    refine (advanceToNextEdge_persists S more c).bind fun _ c => (level_persists S more c).bind fun high c => ?_
    refine Wire.Persists.bind ?_ fun _ c => (samplesUntilNextEdge_persists S more c).bind fun d c => ?_
    · exact .ite (advanceToNextEdge_persists S more _) (.refl _)
    · exact .ite (.refl _) (ih (by omega) _ c)

theorem brkMarks_persists (n : Nat) (c : Cursor) : (brkMarks S spb n c).Persists (brkMarks (S ++ more) spb n c) := by
  induction n generalizing c with
  | zero => exact .refl _
  | succ n ih => exact (level_persists S more c).bind fun b c => (advance_persists S more _ _).bind fun _ c => ih c

theorem brkStop_persists (c : Cursor) : (brkStop p S spb c).Persists (brkStop p (S ++ more) spb c) :=
  (level_persists S more c).bind fun _ _ => (samplesUntilNextEdge_persists S more _).bind fun _ c =>
    .ite ((advance_persists S more _ c).bind fun _ _ => .refl _)
      ((advance_persists S more _ c).bind fun _ _ => .refl _)

/-- A scan that returns has seen all it needs (40 R90). -/
theorem brkScan_persists (c : Cursor) : (brkScan p S spb v c).Persists (brkScan p (S ++ more) spb v c) :=
  have hturns : S.length + 1 ≤ (S ++ more).length + 1 := by simp
  (brkSearch_persists S more spb _ hturns false c).bind fun found c => (advance_persists S more _ c).bind fun _ c =>
    (brkMarks_persists S more spb found.bits c).bind fun _ c => (brkStop_persists p S more spb c).bind fun _ _ =>
      .refl _

/-! BYTE_READ on a longer stream. -/

theorem readBits_persists (n : Nat) (value : Byte) (c : Cursor) :
    (readBits p S spb v n value c).Persists (readBits p (S ++ more) spb v n value c) := by
  induction n generalizing value c with
  | zero => exact .refl _
  | succ n ih => exact (advance_persists S more _ c).bind fun _ c => (level_persists S more c).bind fun _ _ => ih _ _

theorem byteStart_persists (c : Cursor) : (byteStart S c).Persists (byteStart (S ++ more) c) :=
  (advanceToNextEdge_persists S more c).bind fun _ c => (level_persists S more c).bind fun _ c =>
    Wire.Persists.bind (.ite (advanceToNextEdge_persists S more _) (.refl (.done () c))) fun _ _ => .refl _

theorem byteLowStop_persists (value : Byte) (start : Nat) (ferr : Bool) (c : Cursor) :
    (byteLowStop p S spb v value start ferr c).Persists (byteLowStop p (S ++ more) spb v value start ferr c) :=
  (samplesUntilNextEdge_persists S more c).bind fun _ c =>
    .ite
      ((advanceToNextEdge_persists S more c).bind fun _ c => (samplesUntilNextEdge_persists S more c).bind fun _ c =>
        .ite ((advance_persists S more _ c).bind fun _ _ => .refl _) (.refl _))
      (.refl _)

/-- A read that returns has seen all it needs (41 R100). -/
theorem byteRead_persists (c : Cursor) : (byteRead p S spb v c).Persists (byteRead p (S ++ more) spb v c) :=
  (byteStart_persists S more c).bind fun ferr c => (advance_persists S more _ c).bind fun _ _ =>
    (readBits_persists p S more spb v 8 _ _).bind fun value c => (advance_persists S more _ c).bind fun _ c =>
      (level_persists S more c).bind fun _ c => .ite (.refl _) (byteLowStop_persists p S more spb v value _ ferr c)

end

/-- Settles O48: both wire operations persist on a longer stream, since each primitive does. -/
theorem laterSamplesChangeNothing : Obligations.LaterSamplesChangeNothing :=
  fun p S more spb v c c' => ⟨fun r => byteRead_persists p S more spb v c r c',
    fun u => brkScan_persists p S more spb v c u c'⟩

end Sys2Proof.Machine
end

section
/-! PROOFS, family 20_memory.md: the two bit orders. -/

namespace Sys2Proof.Machine

/-! Bits of a byte, forwards and backwards (20 R56). -/

theorem getLsbD_setBit (x : Byte) {i j : Nat} (hi : i < 8) (hj : j < 8) (b : Bool) :
    (setBit x i b).getLsbD j = if j = i then b else x.getLsbD j := by
  have hmask : (1#8 <<< i).getLsbD j = decide (j = i) := by
    rw [← BitVec.twoPow_eq, BitVec.getLsbD_twoPow, decide_eq_true hi, Bool.true_and, decide_eq_decide]
    exact eq_comm
  cases b with
  | true =>
    rw [setBit, if_pos rfl, BitVec.getLsbD_or, hmask]
    by_cases hji : j = i <;> simp [hji]
  | false =>
    rw [setBit, if_neg Bool.false_ne_true, BitVec.getLsbD_and, BitVec.getLsbD_not, hmask]
    by_cases hji : j = i <;> simp [hji, hj]

theorem getLsbD_reverse_byte (x : Byte) {j : Nat} (hj : j < 8) : x.reverse.getLsbD j = x.getLsbD (7 - j) := by
  rw [BitVec.getLsbD_reverse, BitVec.getMsbD_eq_getLsbD, decide_eq_true hj, Bool.true_and]

/-- Setting a bit and reversing is reversing and setting the mirrored bit. -/
theorem reverse_setBit (x : Byte) {i : Nat} (hi : i < 8) (b : Bool) :
    (setBit x i b).reverse = setBit x.reverse (7 - i) b := by
  refine BitVec.eq_of_getLsbD_eq fun j hj => ?_
  have hmirror : 7 - j = i ↔ j = 7 - i := by omega
  rw [getLsbD_reverse_byte _ hj, getLsbD_setBit x hi (by omega), getLsbD_setBit _ (by omega) hj,
    getLsbD_reverse_byte x hj]
  simp only [hmirror]

theorem dataIndex_lt (p : Config) (v : Version) {i : Nat} (hi : i < 8) : dataIndex p v i < 8 := by
  unfold dataIndex
  split <;> omega

/-- The other bit order puts a data bit at the mirrored place. -/
theorem dataIndex_mirrored {p : Config} {v w : Version} (hvw : p.lsbFirst.get w = !p.lsbFirst.get v) {i : Nat}
    (hi : i < 8) : dataIndex p w i = 7 - dataIndex p v i := by
  unfold dataIndex
  rw [hvw]
  cases p.lsbFirst.get v with
  | true => rfl
  | false => simp; omega

/-! BYTE_READ in the other bit order. -/

/-- The data loop in the other bit order builds the mirrored value from the same samples. -/
theorem readBits_reversed {p : Config} {S : List Sample} {spb : Nat} {v w : Version}
    (hvw : p.lsbFirst.get w = !p.lsbFirst.get v) {n : Nat} (hn : n ≤ 8) {value x : Byte} {c c' : Cursor}
    (h : readBits p S spb v n value c = .done x c') :
    readBits p S spb w n value.reverse c = .done x.reverse c' := by
  induction n generalizing value c with
  | zero => cases h; rfl
  | succ n ih =>
    obtain ⟨u, c1, hadvance, h⟩ := Wire.bind_eq_done h
    obtain ⟨b, c2, hlevel, h⟩ := Wire.bind_eq_done h
    have hi : 7 - n < 8 := by omega
    rw [readBits, hadvance, Wire.bind_done, hlevel, Wire.bind_done, dataIndex_mirrored hvw hi,
      ← reverse_setBit value (dataIndex_lt p v hi)]
    exact ih (by omega) h

/-- The data loop moves the cursor a bit period a data bit (41 R100). -/
theorem readBits_pos {p : Config} {S : List Sample} {spb : Nat} {v : Version} {n : Nat} {value x : Byte}
    {c c' : Cursor} (h : readBits p S spb v n value c = .done x c') : c'.pos = c.pos + n * spb := by
  induction n generalizing value c with
  | zero => cases h; simp
  | succ n ih =>
    obtain ⟨u, c1, hadvance, h⟩ := Wire.bind_eq_done h
    obtain ⟨b, c2, hlevel, h⟩ := Wire.bind_eq_done h
    obtain ⟨rfl, -⟩ := advance_eq_done hadvance
    obtain ⟨rfl, -⟩ := level_eq_done hlevel
    have hpos := ih h
    rw [Nat.succ_mul]
    simp only [Cursor.mark] at hpos
    omega

/-- Settles O47: with a high stop bit the bit order matters to the data loop only, which mirrors the value. -/
theorem bitOrdersAreReversed : Obligations.BitOrdersAreReversed := by
  intro p S spb v w c c' b _ hvw h hstop
  obtain ⟨ferr, c1, hstart, h⟩ := Wire.bind_eq_done h
  obtain ⟨u, c2, hhalf, h⟩ := Wire.bind_eq_done h
  obtain ⟨x, c3, hdata, h⟩ := Wire.bind_eq_done h
  obtain ⟨u', c4, hbit, h⟩ := Wire.bind_eq_done h
  obtain ⟨high, c5, hlevel, h⟩ := Wire.bind_eq_done h
  have hzero : (0x00 : Byte).reverse = 0x00 := by decide
  have hmirror := readBits_reversed hvw (Nat.le_refl 8) hdata
  rw [hzero] at hmirror
  rw [byteRead, hstart, Wire.bind_done, hhalf, Wire.bind_done, hmirror, Wire.bind_done, hbit, Wire.bind_done,
    hlevel, Wire.bind_done]
  obtain ⟨hc2, -⟩ := advance_eq_done hhalf
  obtain ⟨hc4, -⟩ := advance_eq_done hbit
  obtain ⟨hc5, hsample⟩ := level_eq_done hlevel
  have hc3 : c3.pos = (c2.mark .startBit).pos + 8 * spb := readBits_pos hdata
  have hpos : c4.pos = c1.pos + half p spb + 9 * spb := by
    rw [hc4, hc3, hc2]; dsimp only [Cursor.mark]; omega
  cases high with
  | true => cases h; rfl
  | false =>
    have hle : c1.pos ≤ c5.pos := by rw [hc5, hpos]; omega
    obtain ⟨hb, -⟩ := byteLowStop_eq_done h hle
    rw [hb, ← hpos, hsample] at hstop
    cases hstop

end Sys2Proof.Machine
end

section
/-! PROOFS, family 30_encoding.md: the decoder against the encoder. -/

namespace Sys2Proof

open Sys2Proof.Machine (functionSelect lengthCode instructionBit)

/-! The sixteen V2 rows as one operation of function-select and length code (43 R141). -/

/-- The operation `LEN.V2.F<f>.C<c>` on a header. -/
def rowV2 (f : Bool) (c : BitVec 3) (version : BitVec 2) (id1 id2 : Byte) : Instr :=
  if f = false then
    match c.toNat with
    | 0 => .lenV2F0C0 version id1 id2
    | 1 => .lenV2F0C1 version id1 id2
    | 2 => .lenV2F0C2 version id1 id2
    | 3 => .lenV2F0C3 version id1 id2
    | 4 => .lenV2F0C4 version id1 id2
    | 5 => .lenV2F0C5 version id1 id2
    | 6 => .lenV2F0C6 version id1 id2
    | _ => .lenV2F0C7 version id1 id2
  else
    match c.toNat with
    | 0 => .lenV2F1C0 version id1 id2
    | 1 => .lenV2F1C1 version id1 id2
    | 2 => .lenV2F1C2 version id1 id2
    | 3 => .lenV2F1C3 version id1 id2
    | 4 => .lenV2F1C4 version id1 id2
    | 5 => .lenV2F1C5 version id1 id2
    | 6 => .lenV2F1C6 version id1 id2
    | _ => .lenV2F1C7 version id1 id2

/-- The decoder takes the row that the header's own fields name. -/
theorem decodeLenV2_eq (p : Config) (version : BitVec 2) (id1 id2 : Byte) :
    decodeLenV2 p version id1 id2 = rowV2 (functionSelect p .v2 id1 id2) (lengthCode p id2) version id1 id2 := rfl

/-- Each row's word is its header word, and it is well-formed when the header has the row's fields. -/
theorem rowV2_encoding (p : Config) (f : Bool) (c : BitVec 3) (version : BitVec 2) (id1 id2 : Byte) :
    encode p (rowV2 f c version id1 id2) = some (.header (headerWord version id1 id2)) ∧
      (rowV2 f c version id1 id2).wellFormed p = isRowV2 p f c version id1 id2 := by
  have hcodes : ∀ c : BitVec 3, c = 0 ∨ c = 1 ∨ c = 2 ∨ c = 3 ∨ c = 4 ∨ c = 5 ∨ c = 6 ∨ c = 7 := by decide
  cases f <;> rcases hcodes c with rfl | rfl | rfl | rfl | rfl | rfl | rfl | rfl <;> exact ⟨rfl, rfl⟩

/-! The decoder by the version of the header word (43 R140). -/

theorem decodeLen_of_v1 {p : Config} {w : BitVec 2} (hw : Version.ofCode p w = some .v1) (id1 id2 : Byte) :
    decodeLen p (headerWord w id1 id2) =
      .ok (if functionSelect p .v1 id1 id2 then .lenV1F1 id1 id2 else .lenV1F0 id1 id2) := by
  simp only [decodeLen, headerWord_version, headerWord_id1, headerWord_id2, hw]
  split <;> rfl

theorem decodeLen_of_v1Extended {p : Config} {w : BitVec 2} (hw : Version.ofCode p w = some .v1Extended)
    (id1 id2 : Byte) :
    decodeLen p (headerWord w id1 id2) =
      .ok (if functionSelect p .v1Extended id1 id2 then .lenV1xF1 id1 id2 else .lenV1xF0 id1 id2) := by
  simp only [decodeLen, headerWord_version, headerWord_id1, headerWord_id2, hw]
  split <;> rfl

theorem decodeLen_of_v2 {p : Config} {w : BitVec 2} (hw : Version.ofCode p w = some .v2) (id1 id2 : Byte) :
    decodeLen p (headerWord w id1 id2) =
      .ok (rowV2 (functionSelect p .v2 id1 id2) (lengthCode p id2) w id1 id2) := by
  simp only [decodeLen, headerWord_version, headerWord_id1, headerWord_id2, hw, decodeLenV2_eq]

theorem decodeLen_reserved {p : Config} {w : BitVec 2} (hw : Version.ofCode p w = none) (id1 id2 : Byte) :
    decodeLen p (headerWord w id1 id2) = .error .reservedVersion := by
  simp only [decodeLen, headerWord_version, hw]

theorem decodeInstrBit_of_version {p : Config} {w : BitVec 2} {v : Version} (hw : Version.ofCode p w = some v)
    (id1 id2 : Byte) :
    decodeInstrBit p (headerWord w id1 id2) =
      if instructionBit p v id2 then .ok (.instrV2 id1 id2) else .error .noInstructionBit := by
  simp only [decodeInstrBit, headerWord_version, headerWord_id1, headerWord_id2, hw]

theorem decodeInstrBit_reserved {p : Config} {w : BitVec 2} (hw : Version.ofCode p w = none) (id1 id2 : Byte) :
    decodeInstrBit p (headerWord w id1 id2) = .error .reservedVersion := by
  simp only [decodeInstrBit, headerWord_version, hw]

/-! Decode of encode. -/

/-- The header of a V2 row decodes to the row. -/
theorem decode_rowV2 {p : Config} {f : Bool} {c : BitVec 3} {w : BitVec 2} {id1 id2 : Byte}
    (h : isRowV2 p f c w id1 id2 = true) :
    decode p (.header (headerWord w id1 id2)) = .ok (rowV2 f c w id1 id2) := by
  simp only [isRowV2, Bool.and_eq_true, beq_iff_eq] at h
  obtain ⟨⟨hw, rfl⟩, rfl⟩ := h
  exact decodeLen_of_v2 hw id1 id2

/-- Settles O56: a state word names its state, a V2 header its row's fields, and the other header words carry the
code of the version the row names. -/
theorem decodeOfEncode : Obligations.DecodeOfEncode := by
  intro p i sel hp hwf hsel
  have named := Version.ofCode_code hp
  cases i with
  | stNoframe | stHeaderbreak | stHeaderid1 | stHeaderid2 | stInstr1 | stInstr2 | stData | stCrc1 | stCrc2
  | stAck | byteRead => cases hsel; rfl
  | lenV2F0C0 | lenV2F0C1 | lenV2F0C2 | lenV2F0C3 | lenV2F0C4 | lenV2F0C5 | lenV2F0C6 | lenV2F0C7
  | lenV2F1C0 | lenV2F1C1 | lenV2F1C2 | lenV2F1C3 | lenV2F1C4 | lenV2F1C5 | lenV2F1C6 | lenV2F1C7 =>
    cases hsel; exact decode_rowV2 hwf
  | lenV1F0 id1 id2 | lenV1F1 id1 id2 =>
    cases hsel
    have hf : functionSelect p .v1 id1 id2 = _ := beq_iff_eq.1 hwf
    exact (decodeLen_of_v1 (named .v1) id1 id2).trans (by rw [hf]; rfl)
  | lenV1xF0 id1 id2 | lenV1xF1 id1 id2 =>
    cases hsel
    have hf : functionSelect p .v1Extended id1 id2 = _ := beq_iff_eq.1 hwf
    exact (decodeLen_of_v1Extended (named .v1Extended) id1 id2).trans (by rw [hf]; rfl)
  | instrV2 id1 id2 =>
    cases hsel
    have hbit : instructionBit p .v2 id2 = true := hwf
    exact (decodeInstrBit_of_version (named .v2) id1 id2).trans (if_pos hbit)
  | iter | brkScan | missingByte | sessionStart | sessionCancel | sessionExhaust | len | crcReset | crcAdd
  | crcAbsorbV1 | crcAbsorbV2 | crcResult | crcRxcheck | ackpolV1 | ackpolV1x | ackpolV2 | ackEnabled =>
    cases hsel

/-! Encode of decode. -/

/-- The operation a header word selects, by either use of the word, is well-formed and has that use of the word as
its encoding. -/
theorem encode_of_decodeLen {p : Config} {h : BitVec 18} {i : Instr} (hd : decodeLen p h = .ok i) :
    encode p i = some (.header h) ∧ i.wellFormed p = true := by
  rw [← headerWord_of_parts h] at hd ⊢
  cases hv : Version.ofCode p (h.extractLsb' 16 2) with
  | none => rw [decodeLen_reserved hv] at hd; cases hd
  | some v =>
    cases v with
    | v1 =>
      rw [decodeLen_of_v1 hv] at hd
      rw [Version.code_of_ofCode hv]
      cases hd
      split
      · exact ⟨rfl, beq_iff_eq.2 ‹_›⟩
      · exact ⟨rfl, beq_iff_eq.2 (Bool.eq_false_of_not_eq_true ‹_›)⟩
    | v1Extended =>
      rw [decodeLen_of_v1Extended hv] at hd
      rw [Version.code_of_ofCode hv]
      cases hd
      split
      · exact ⟨rfl, beq_iff_eq.2 ‹_›⟩
      · exact ⟨rfl, beq_iff_eq.2 (Bool.eq_false_of_not_eq_true ‹_›)⟩
    | v2 =>
      rw [decodeLen_of_v2 hv] at hd
      cases hd
      obtain ⟨hword, hwf⟩ := rowV2_encoding p (functionSelect p .v2 (h.extractLsb' 8 8) (h.extractLsb' 0 8))
        (lengthCode p (h.extractLsb' 0 8)) (h.extractLsb' 16 2) (h.extractLsb' 8 8) (h.extractLsb' 0 8)
      exact ⟨hword, hwf.trans (by simp [isRowV2, hv])⟩

theorem encode_of_decodeInstrBit {p : Config} {h : BitVec 18} {i : Instr} (hd : decodeInstrBit p h = .ok i) :
    encode p i = some (.instrBit h) ∧ i.wellFormed p = true := by
  rw [← headerWord_of_parts h] at hd ⊢
  cases hv : Version.ofCode p (h.extractLsb' 16 2) with
  | none => rw [decodeInstrBit_reserved hv] at hd; cases hd
  | some v =>
    rw [decodeInstrBit_of_version hv] at hd
    split at hd
    · rename_i hbit
      obtain rfl := Machine.eq_v2_of_instructionBit hbit
      rw [Version.code_of_ofCode hv]
      cases hd
      exact ⟨rfl, hbit⟩
    · cases hd

/-- A state word with a break or a byte is the word of the state step it selects. -/
theorem encode_of_decodeState {p : Config} {w : BitVec 4} {u : WireUnit} {i : Instr}
    (hu : ∀ f, u ≠ .breakField f) (hd : decodeState w u = .ok i) : encode p i = some (.state w u) := by
  unfold decodeState at hd
  split at hd
  · cases hd
  · rename_i st hst
    rw [FrameState.code_of_ofCode hst]
    cases u with
    | breakField f => exact absurd rfl (hu f)
    | brk b | byte b => cases st <;> cases hd <;> rfl

/-- Settles O57: state words by their state, header words by the version they carry. -/
theorem encodeOfDecode : Obligations.EncodeOfDecode := by
  intro p sel i hd
  cases sel with
  | frame f => exact ⟨fun hf => absurd rfl (hf f), nofun⟩
  | state w u => exact ⟨fun _ hu => encode_of_decodeState (fun f hf => hu w f (by rw [hf])) hd, nofun⟩
  | header h =>
    obtain ⟨hword, hwf⟩ := encode_of_decodeLen hd
    exact ⟨fun _ _ => hword, fun _ _ => hwf⟩
  | instrBit h =>
    obtain ⟨hword, hwf⟩ := encode_of_decodeInstrBit hd
    exact ⟨fun _ _ => hword, fun _ _ => hwf⟩

end Sys2Proof
end

section
/-! PROOFS, family 30_encoding.md: written-out words, byte frames, the codes of event words, and the refusals of a
reserved configuration. -/

namespace Sys2Proof

open Sys2Proof.Machine (dataBit dataWave byteWave line)

/-- Settles O55: each word is a concrete one, which the decoder evaluates. -/
theorem writtenWordsDecode : Obligations.WrittenWordsDecode :=
  ⟨fun _ => rfl, fun _ => rfl, fun _ => rfl, rfl, rfl, rfl, rfl, rfl, rfl, rfl⟩

/-! The byte frame (30 R62). -/

theorem reverseByte_eq_reverse (b : Byte) : reverseByte b = b.reverse := by revert b; decide

theorem wireOrder_wireOrder (p : Config) (v : Version) (b : Byte) : wireOrder p v (wireOrder p v b) = b := by
  unfold wireOrder
  split
  · rw [reverseByte_eq_reverse, reverseByte_eq_reverse, BitVec.reverse_reverse_eq]
  · rfl

/-- The data symbols in time order are the data bits of the waveform (30 R80, 20 R56). -/
theorem wireOrder_getMsbD (p : Config) (v : Version) (b : Byte) {k : Nat} (hk : k < 8) :
    (wireOrder p v b).getMsbD k = dataBit p v b k := by
  unfold wireOrder dataBit
  split
  · rw [reverseByte_eq_reverse, BitVec.getMsbD_reverse]
  · rw [BitVec.getMsbD_eq_getLsbD, decide_eq_true hk, Bool.true_and]

/-- Ten symbols `0abcdefgh1`: their data symbols, and that the decoder takes them for a frame. -/
theorem framed_byte (w : Byte) :
    (0#1 ++ w ++ 1#1).extractLsb' 1 8 = w ∧ decodeFrame (0#1 ++ w ++ 1#1) = .ok .byteRead ∧
      (List.range 10).map (fun k => (0#1 ++ w ++ 1#1).getMsbD k) =
        false :: (List.range 8).map (fun k => w.getMsbD k) ++ [true] := by
  refine ⟨?_, ?_, ?_⟩
  · revert w; decide
  · exact if_pos (by revert w; decide)
  · revert w; decide

/-- At one sample a bit period the data bits stand one after another. -/
theorem dataWave_one (p : Config) (v : Version) (b : Byte) (n k : Nat) :
    dataWave p v 1 b n k = (List.range' k n).map (dataBit p v b) := by
  induction n generalizing k with
  | zero => rfl
  | succ n ih => simp [dataWave, line, List.range'_succ, ih]

/-- Settles O58: the frame is a framed byte whose data symbols are the value in the version's bit order. -/
theorem framesHoldTheirValue : Obligations.FramesHoldTheirValue := by
  intro p v b
  obtain ⟨hdata, hdecode, hsymbols⟩ := framed_byte (wireOrder p v b)
  refine ⟨hdecode, ?_, ?_⟩
  · rw [frameValue, frameOf, hdata, wireOrder_wireOrder]
  · have hbits : (List.range 8).map (fun k => (wireOrder p v b).getMsbD k) = (List.range 8).map (dataBit p v b) :=
      List.map_congr_left fun k hk => wireOrder_getMsbD p v b (List.mem_range.1 hk)
    rw [byteWave, dataWave_one, ← List.range_eq_range', frameOf, hsymbols, hbits]
    rfl

/-! Event words (30 R71 to R73). -/

/-- The bits of the flag code, one flag each, for all of the 32 flag sets. -/
theorem flagsCode_getLsbD : ∀ framing expected mismatch failed toggling : Bool,
    let code := (Machine.Flags.mk framing expected mismatch failed toggling).code
    code.getLsbD 0 = framing ∧ code.getLsbD 1 = expected ∧ code.getLsbD 2 = mismatch ∧ code.getLsbD 3 = failed ∧
      code.getLsbD 4 = toggling := by
  decide

/-- Settles O59: the flag code bit by bit, the other codes by their tables. -/
theorem eventCodes : Obligations.EventCodes :=
  ⟨fun f => flagsCode_getLsbD f.framingError f.headerBreakExpected f.crcMismatch f.receptionFailed
      f.unexpectedToggling,
    fun _ _ _ _ _ => ⟨rfl, rfl, rfl, rfl, rfl⟩, rfl⟩

namespace Machine

/-! Refusals (93 U4, U6; log 9). -/

theorem withTiming_reserved {s : State} (h : s.protocol = none) (k : Version → Nat → Outcome) :
    s.withTiming k = .refused .reservedVersion := withVersion_reserved h _

theorem withTiming_of_short {s : State} (h : s.protocol ≠ none) (hs : s.spb < 2) (k : Version → Nat → Outcome) :
    s.withTiming k = .refused .illegalBitPeriod := by
  obtain ⟨v, hv⟩ := Option.ne_none_iff_exists'.1 h
  exact (withVersion_of_protocol hv _).trans (if_neg (Nat.not_le.2 hs))

theorem exec_wire_reserved {s : State} (h : s.protocol = none) :
    exec .brkScan s = .refused .reservedVersion ∧ exec .byteRead s = .refused .reservedVersion := by
  simp only [exec, execBrkScan, execByteRead, withTiming_reserved h, and_self]

theorem exec_wire_short {s : State} (h : s.protocol ≠ none) (hs : s.spb < 2) :
    exec .brkScan s = .refused .illegalBitPeriod ∧ exec .byteRead s = .refused .illegalBitPeriod := by
  simp only [exec, execBrkScan, execByteRead, withTiming_of_short h hs, and_self]

/-- Settles O39: the state steps and CRC.RXCHECK begin by reading `VERSION`, the wire operations by reading it and
`SPB`. -/
theorem reservedConfigurationRefused : Obligations.ReservedConfigurationRefused := by
  intro s r b
  refine ⟨fun h => ?_, fun h hs => exec_wire_short h hs⟩
  have hversion := withVersion_reserved h
  exact ⟨hversion _, hversion _, hversion _, hversion _, hversion _, hversion _, hversion _, exec_wire_reserved h⟩

end Machine

end Sys2Proof
end

section
/-! PROOFS, family 30_encoding.md: the wire operations on the waveform of a packet. -/

namespace Sys2Proof.Machine

/-! Reading a stream whose rest is known. -/

theorem sample_of_drop {S l : List Sample} {pos : Nat} (h : S.drop pos = l) (i : Nat) : S[pos + i]? = l[i]? := by
  rw [← h, List.getElem?_drop]

theorem drop_of_append {S l rest : List Sample} {pos n : Nat} (h : S.drop pos = l ++ rest) (hn : l.length = n) :
    S.drop (pos + n) = rest := by
  rw [← List.drop_drop, h, ← hn, List.drop_left]

theorem line_length (n : Nat) (b : Sample) : (line n b).length = n := List.length_replicate

/-- The samples of a level that lasts from the cursor for `n` samples. -/
theorem sample_of_line {S rest : List Sample} {pos n q : Nat} {b : Sample} (h : S.drop pos = line n b ++ rest)
    (hpos : pos ≤ q) (hq : q < pos + n) : S[q]? = some b := by
  obtain ⟨i, rfl⟩ := Nat.exists_eq_add_of_le hpos
  have hi : i < n := by omega
  rw [sample_of_drop h, List.getElem?_append_left (by rwa [line_length])]
  simp [line, hi]

theorem level_of_sample {S : List Sample} {c : Cursor} {b : Sample} (h : S[c.pos]? = some b) :
    level S c = .done b c := by
  rw [level, h]

theorem advance_of_sample {S : List Sample} {c : Cursor} {n : Nat} {b : Sample} (h : S[c.pos + n]? = some b) :
    advance S n c = .done () { c with pos := c.pos + n } :=
  advance_of_lt (List.getElem?_eq_some_iff.1 h).1

/-- The next edge ends the run of samples that the cursor stands in (20 R44). -/
theorem nextEdge_of_run {S : List Sample} {pos q : Nat} {b : Sample} (hlt : pos < q)
    (hrun : ∀ i, pos ≤ i → i < q → S[i]? = some b) (hq : S[q]? = some (!b)) : nextEdge S pos = some q := by
  have hpos := hrun pos (Nat.le_refl _) hlt
  cases hedge : nextEdge S pos with
  | none =>
    have := nextEdge_eq_none hedge q (Nat.le_of_lt hlt) (List.getElem?_eq_some_iff.1 hq).1
    rw [hpos, hq] at this
    cases b <;> cases this
  | some r =>
    obtain ⟨x, hx, hlt', hr, hrun'⟩ := nextEdge_eq_some hedge
    obtain rfl : x = b := Option.some.inj (hx.symm.trans hpos)
    rcases Nat.lt_trichotomy r q with h | rfl | h
    · rw [hrun r (Nat.le_of_lt hlt') h] at hr; cases x <;> cases hr
    · rfl
    · rw [hrun' q (Nat.le_of_lt hlt) h] at hq; cases x <;> cases hq

/-- The line is high from the cursor up to `start`, where `rest` begins. -/
structure HighUntil (S : List Sample) (pos start : Nat) (rest : List Sample) : Prop where
  ahead : pos < start
  high : ∀ q, pos ≤ q → q < start → S[q]? = some true
  rest : S.drop start = rest

/-- From a high line to the falling edge of a low run. -/
theorem HighUntil.nextEdge {S rest : List Sample} {pos start n : Nat}
    (h : HighUntil S pos start (line n false ++ rest)) (hn : 1 ≤ n) : nextEdge S pos = some start :=
  nextEdge_of_run h.ahead h.high (sample_of_line h.rest (Nat.le_refl _) (by omega))

/-- Inside a high run the line is high up to the run's end. -/
theorem HighUntil.of_line {S rest : List Sample} {pos n q : Nat} (h : S.drop pos = line n true ++ rest)
    (hpos : pos ≤ q) (hq : q < pos + n) : HighUntil S q (pos + n) rest :=
  ⟨hq, fun _ hle hlt => sample_of_line h (hpos.trans hle) hlt, drop_of_append h (line_length _ _)⟩

/-! BYTE_READ on a byte frame (41 R100, 30 R62). -/

/-- The start bit of a frame on an idle line. -/
theorem byteStart_of_high {S rest : List Sample} {start n : Nat} {c : Cursor}
    (h : HighUntil S c.pos start (line n false ++ rest)) (hn : 1 ≤ n) :
    byteStart S c = .done false { c with pos := start } := by
  have hlow : S[start]? = some false := sample_of_line h.rest (Nat.le_refl _) (by omega)
  rw [byteStart, advanceToNextEdge, h.nextEdge hn, Wire.bind_done, level_of_sample hlow, Wire.bind_done]
  rfl

theorem dataBit_eq (p : Config) (v : Version) (b : Byte) (k : Nat) :
    dataBit p v b k = b.getLsbD (dataIndex p v k) := by
  unfold dataBit dataIndex
  split <;> rfl

theorem dataIndex_dataIndex (p : Config) (v : Version) {k : Nat} (hk : k < 8) :
    dataIndex p v (dataIndex p v k) = k := by
  unfold dataIndex
  split
  · rfl
  · omega

/-- A byte is known by its data bits. -/
theorem eq_of_dataBits {p : Config} {v : Version} {x b : Byte}
    (h : ∀ k, k < 8 → x.getLsbD (dataIndex p v k) = dataBit p v b k) : x = b := by
  refine BitVec.eq_of_getLsbD_eq fun i hi => ?_
  have hbit := h (dataIndex p v i) (dataIndex_lt p v hi)
  rwa [dataBit_eq, dataIndex_dataIndex p v hi] at hbit

/-- The data loop over the last `n` data bits of a frame, the cursor a bit period before the middle of the first of
them, the bits before them already in place. -/
theorem readBits_of_wave {p : Config} {S rest : List Sample} {spb start mid : Nat} {v : Version} {b : Byte}
    (hmid : mid < spb) {n : Nat} (hn : n ≤ 8) {value : Byte} {c : Cursor}
    (hwave : S.drop start = dataWave p v spb b n (8 - n) ++ rest) (hpos : c.pos + spb = start + mid)
    (hvalue : ∀ k, k < 8 - n → value.getLsbD (dataIndex p v k) = dataBit p v b k) :
    ∃ c', readBits p S spb v n value c = .done b c' := by
  induction n generalizing value c start with
  | zero => exact ⟨c, by rw [readBits, eq_of_dataBits hvalue]⟩
  | succ n ih =>
    have hk : 8 - (n + 1) = 7 - n := by omega
    have hnext : 7 - n + 1 = 8 - n := by omega
    rw [hk, dataWave, List.append_assoc, hnext] at hwave
    have hsample : S[c.pos + spb]? = some (dataBit p v b (7 - n)) :=
      sample_of_line hwave (by omega) (by omega)
    rw [readBits, advance_of_sample hsample, Wire.bind_done, level_of_sample hsample, Wire.bind_done]
    refine ih (by omega) (drop_of_append hwave (line_length _ _)) (by simp only [Cursor.mark]; omega) fun k hlt => ?_
    rw [getLsbD_setBit value (dataIndex_lt p v (by omega)) (dataIndex_lt p v (by omega))]
    split
    · rename_i hsame
      have : k = 7 - n := by
        rw [← dataIndex_dataIndex p v (k := k) (by omega), hsame, dataIndex_dataIndex p v (by omega)]
      rw [this]
    · rename_i hother
      have hne : k ≠ 7 - n := fun hk => hother (by rw [hk])
      exact hvalue k (by omega)

/-- The data bits last eight bit periods. -/
theorem dataWave_length (p : Config) (v : Version) (spb : Nat) (b : Byte) (n k : Nat) :
    (dataWave p v spb b n k).length = n * spb := by
  induction n generalizing k with
  | zero => simp [dataWave]
  | succ n ih => rw [dataWave, List.length_append, line_length, ih, Nat.succ_mul, Nat.add_comm]

/-- On an idle line before a frame BYTE_READ returns its byte, without `ferr`, and stops in the stop bit. -/
theorem byteRead_of_frame {p : Config} {S rest : List Sample} {spb start : Nat} {v : Version} {b : Byte} {c : Cursor}
    (hhalf : half p spb < spb) (h : HighUntil S c.pos start (byteWave p v spb b true ++ rest)) :
    ∃ c' stop, byteRead p S spb v c =
        .done (.byte { value := b, startPos := start, endPos := c'.pos, ferr := false }) c' ∧
      HighUntil S c'.pos stop rest := by
  rw [byteWave, List.append_assoc, List.append_assoc] at h
  have hdata : S.drop (start + spb) = dataWave p v spb b 8 0 ++ (line spb true ++ rest) :=
    drop_of_append h.rest (line_length _ _)
  have hstop : S.drop (start + spb + 8 * spb) = line spb true ++ rest :=
    drop_of_append hdata (dataWave_length p v spb b 8 0)
  have hlow : S[start + half p spb]? = some false := sample_of_line h.rest (by omega) (by omega)
  obtain ⟨c1, hread⟩ := readBits_of_wave (c := (⟨start + half p spb, c.trace⟩ : Cursor).mark .startBit)
    (value := 0x00) hhalf (Nat.le_refl 8) hdata (by simp only [Cursor.mark]; omega) nofun
  have hpos : c1.pos = start + half p spb + 8 * spb := readBits_pos hread
  have hhigh : S[c1.pos + spb]? = some true := sample_of_line hstop (by omega) (by omega)
  refine ⟨({ c1 with pos := c1.pos + spb } : Cursor).mark .stopBit, _, ?_,
    .of_line hstop (q := c1.pos + spb) (by omega) (by omega)⟩
  rw [byteRead, byteStart_of_high h (by omega), Wire.bind_done, advance_of_sample hlow, Wire.bind_done, hread,
    Wire.bind_done, advance_of_sample hhigh, Wire.bind_done, level_of_sample hhigh, Wire.bind_done, if_pos rfl]
  rfl

/-! BRK_SCAN on a break field of whole bit periods (40 R90, 30 R61). -/

theorem rnd_mul {spb : Nat} (n : Nat) (hspb : 0 < spb) : rnd spb (n * spb) = n := by
  rw [rnd, show 2 * (n * spb) + spb = spb + n * (2 * spb) by ring, Nat.add_mul_div_right _ _ (by omega),
    Nat.div_eq_of_lt (by omega), Nat.zero_add]

/-- The first low run that is long enough ends the search. -/
theorem brkSearch_of_break {S rest : List Sample} {spb minBrk start d turns : Nat} {c : Cursor}
    (h : HighUntil S c.pos start (line d false ++ rest)) (hd : 1 ≤ d) (hrise : S[start + d]? = some true)
    (hmin : minBrk ≤ rnd spb d) :
    brkSearch S spb minBrk (turns + 1) false c =
      .done { bits := rnd spb d, toggling := false } { c with pos := start } := by
  have hlow : S[start]? = some false := sample_of_line h.rest (Nat.le_refl _) (by omega)
  have hedge : nextEdge S start = some (start + d) :=
    nextEdge_of_run (by omega) (fun _ hle hlt => sample_of_line h.rest hle hlt) hrise
  rw [brkSearch, advanceToNextEdge, h.nextEdge hd, Wire.bind_done, level_of_sample hlow, Wire.bind_done,
    if_neg Bool.false_ne_true, Wire.bind_done, samplesUntilNextEdge]
  dsimp only
  rw [hedge, Wire.bind_done, Nat.add_sub_cancel_left, if_pos hmin]
  rfl

/-- The marker loop passes over every bit that the stream still has. -/
theorem brkMarks_of_length {S : List Sample} {spb n : Nat} {c : Cursor} (h : c.pos + n * spb < S.length) :
    ∃ c', brkMarks S spb n c = .done () c' ∧ c'.pos = c.pos + n * spb := by
  induction n generalizing c with
  | zero => exact ⟨c, rfl, by simp⟩
  | succ n ih =>
    rw [Nat.succ_mul] at h ⊢
    obtain ⟨b, hb⟩ : ∃ b, S[c.pos]? = some b := ⟨_, List.getElem?_eq_getElem (by omega)⟩
    obtain ⟨c', hmarks, hpos⟩ := ih (c := { c.mark (bitMarker b) with pos := c.pos + spb }) (by dsimp only; omega)
    refine ⟨c', ?_, by dsimp only at hpos; omega⟩
    rw [brkMarks, level_of_sample hb, Wire.bind_done, advance_of_lt (by dsimp only [Cursor.mark]; omega),
      Wire.bind_done]
    exact hmarks

/-- A high stop bit is no framing error, and the cursor stays before the edge that ends it. -/
theorem brkStop_of_high {p : Config} {S rest : List Sample} {spb start n : Nat} {c : Cursor}
    (h : HighUntil S c.pos start (line n false ++ rest)) (hn : 1 ≤ n) :
    ∃ c', brkStop p S spb c = .done false c' ∧ HighUntil S c'.pos start (line n false ++ rest) := by
  have within {k : Nat} (hk : c.pos + k < start) :
      advance S k (c.mark .stopBit) = .done () { c.mark .stopBit with pos := c.pos + k } ∧
        HighUntil S (c.pos + k) start (line n false ++ rest) :=
    ⟨advance_of_sample (h.high (c.pos + k) (by omega) hk), hk, fun q hle => h.high q (by omega), h.rest⟩
  have hahead := h.ahead
  have hedge : samplesUntilNextEdge S (c.mark .stopBit) = .done (start - c.pos) (c.mark .stopBit) := by
    rw [samplesUntilNextEdge, Cursor.mark, h.nextEdge hn]
  rw [brkStop, level_of_sample (h.high _ (Nat.le_refl _) hahead), Wire.bind_done]
  simp only [if_true, hedge, Wire.bind_done]
  split
  · obtain ⟨hadv, hhigh⟩ := within (k := half p spb) (by omega)
    rw [hadv]
    exact ⟨_, rfl, hhigh⟩
  · obtain ⟨hadv, hhigh⟩ := within (k := start - c.pos - 1) (by omega)
    rw [hadv]
    exact ⟨_, rfl, by split <;> exact hhigh⟩

/-- On an idle line before a break field of `n` bits, a stop bit and a falling edge, BRK_SCAN returns the break,
without `ferr` or toggling, and stops in the stop bit. -/
theorem brkScan_of_break {p : Config} {S rest : List Sample} {spb start n : Nat} {v : Version} {c : Cursor}
    (hhalf : half p spb < spb) (hn : 1 ≤ n) (hmin : p.minBrk.get v ≤ n)
    (h : HighUntil S c.pos start (line (n * spb) false ++ (line spb true ++ (line spb false ++ rest)))) :
    ∃ c' stop, brkScan p S spb v c = .done
        { value := 0x00, startPos := start, endPos := c'.pos, bits := n, toggling := false, ferr := false } c' ∧
      HighUntil S c'.pos stop (line spb false ++ rest) := by
  have hspb : 0 < spb := by omega
  have hd : 1 ≤ n * spb := Nat.mul_pos hn hspb
  have hstop : S.drop (start + n * spb) = line spb true ++ (line spb false ++ rest) :=
    drop_of_append h.rest (line_length _ _)
  have hrise : S[start + n * spb]? = some true := sample_of_line hstop (Nat.le_refl _) (by omega)
  have hlow : S[start + half p spb]? = some false :=
    sample_of_line h.rest (by omega) (by have := Nat.le_mul_of_pos_left spb hn; omega)
  have hmid : S[start + half p spb + n * spb]? = some true := sample_of_line hstop (by omega) (by omega)
  obtain ⟨c1, hmarks, hpos⟩ := brkMarks_of_length (S := S) (c := { c with pos := start + half p spb })
    (List.getElem?_eq_some_iff.1 hmid).1
  obtain ⟨c2, hstopped, hhigh⟩ := brkStop_of_high (p := p) (spb := spb) (c := c1)
    (.of_line hstop (by dsimp only at hpos; omega) (by dsimp only at hpos; omega)) hspb
  refine ⟨c2, _, ?_, hhigh⟩
  have hbits := rnd_mul n hspb
  rw [brkScan, brkSearch_of_break h hd hrise (by rw [hbits]; exact hmin), Wire.bind_done, advance_of_sample hlow,
    Wire.bind_done, hbits, hmarks, Wire.bind_done, hstopped]
  rfl

end Sys2Proof.Machine
end

section
/-! PROOFS, family 30_encoding.md: the CRC register after the bytes of a packet. -/

namespace Sys2Proof.Machine

/-! Bytes in the order the pairing adds them (30 R81, 44 R152). -/

theorem pairOrder_append_pair {l : List Byte} (h : l.length % 2 = 0) (a b : Byte) :
    pairOrder (l ++ [a, b]) = pairOrder l ++ [b, a] := by
  induction l using pairOrder.induct with
  | case1 x y rest ih =>
    simp only [List.length_cons] at h
    simp [pairOrder, ih (by omega)]
  | case2 x => simp at h
  | case3 => rfl

theorem crc16_append (p : Config) (l m : List Byte) : crc16 p (l ++ m) = m.foldl (crcAdd p) (crc16 p l) :=
  List.foldl_append

/-- The CRC that a packet with these bytes carries: of the bytes as they come, or in pairs (30 R81). -/
def packetCrc (p : Config) (v : Version) (bytes : List Byte) : Word :=
  crc16 p (if p.crcPairs.get v then pairOrder bytes else bytes)

/-- The registers that CRC_ABSORB works on. -/
structure CrcRegs where
  config : Config
  crc : Word
  par : Bool
  hold : Byte

def State.crcRegs (s : State) : CrcRegs := { config := s.config, crc := s.crc, par := s.crcPar, hold := s.crcHold }

/-- The CRC registers after a reset of the CRC and then these bytes (44 R150, R152). -/
inductive Absorbed (s : State) (v : Version) (bytes : List Byte) : Prop
  | single (hpairs : s.config.crcPairs.get v = false) (hcrc : s.crc = crc16 s.config bytes)
  | paired (hpairs : s.config.crcPairs.get v = true) (hpar : s.crcPar = false) (heven : bytes.length % 2 = 0)
      (hcrc : s.crc = crc16 s.config (pairOrder bytes))
  | held (pairs : List Byte) (hpairs : s.config.crcPairs.get v = true) (hpar : s.crcPar = true)
      (hbytes : bytes = pairs ++ [s.crcHold]) (heven : pairs.length % 2 = 0)
      (hcrc : s.crc = crc16 s.config (pairOrder pairs))

theorem Absorbed.congr {s t : State} {v : Version} {bytes : List Byte} (h : Absorbed s v bytes)
    (ht : t.crcRegs = s.crcRegs) : Absorbed t v bytes := by
  simp only [State.crcRegs, CrcRegs.mk.injEq] at ht
  obtain ⟨hc, h1, h2, h3⟩ := ht
  cases h with
  | single hpairs hcrc => exact .single (by rw [hc, hpairs]) (by rw [h1, hc, hcrc])
  | paired hpairs hpar heven hcrc =>
    exact .paired (by rw [hc, hpairs]) (by rw [h2, hpar]) heven (by rw [h1, hc, hcrc])
  | held pairs hpairs hpar hbytes heven hcrc =>
    exact .held pairs (by rw [hc, hpairs]) (by rw [h2, hpar]) (by rw [h3, hbytes]) heven (by rw [h1, hc, hcrc])

/-- After CRC.RESET nothing has been absorbed. -/
theorem Absorbed.crcReset (s : State) (v : Version) : Absorbed s.crcReset v [] := by
  cases hpairs : s.config.crcPairs.get v with
  | false => exact .single hpairs rfl
  | true => exact .paired hpairs rfl rfl rfl

/-- One more byte. -/
theorem Absorbed.absorb {s : State} {v : Version} {bytes : List Byte} (h : Absorbed s v bytes) (b : Byte) :
    Absorbed (s.absorb v b) v (bytes ++ [b]) := by
  cases h with
  | single hpairs hcrc =>
    rw [State.absorb_of_no_pairs hpairs]
    exact .single hpairs (by simp [State.absorbByte, crc16_append, hcrc])
  | paired hpairs hpar heven hcrc =>
    rw [State.absorb_of_pairs hpairs]
    exact .held bytes hpairs (by simp [hpar]) (by simp [hpar]) heven (by simp [hpar, hcrc])
  | held pairs hpairs hpar hbytes heven hcrc =>
    rw [State.absorb_of_pairs hpairs]
    refine .paired hpairs (by simp [hpar]) (by simp [hbytes]; omega) ?_
    rw [hbytes, List.append_assoc]
    simp [pairOrder_append_pair heven, crc16_append, hpar, hcrc]

/-- After all bytes of a packet, whose number is even where they are taken in pairs, `crc` is the packet's CRC. -/
theorem Absorbed.crc_eq {s : State} {v : Version} {bytes : List Byte} (h : Absorbed s v bytes)
    (heven : bytes.length % 2 = 0) : s.crc = packetCrc s.config v bytes := by
  cases h with
  | single hpairs hcrc => rw [hcrc, packetCrc, hpairs, if_neg Bool.false_ne_true]
  | paired hpairs _ _ hcrc => rw [hcrc, packetCrc, hpairs, if_pos rfl]
  | held pairs _ _ hbytes hpairsEven =>
    rw [hbytes, List.length_append, List.length_singleton] at heven
    omega

theorem hiByte_append_loByte (c : Word) : hiByte c ++ loByte c = c :=
  (BitVec.extractLsb'_append_extractLsb'_eq_extractLsb' (x := c) (start₁ := 0) (start₂ := 8) (len₁ := 8) (len₂ := 8)
    rfl).trans BitVec.extractLsb'_eq_self

end Sys2Proof.Machine
end

section
/-! PROOFS, family 30_encoding.md: a packet taken off the line unit by unit. -/

namespace Sys2Proof.Machine

/-! Runs of ITER. -/

theorem execAll_append {l m : List Instr} {s t : State} (h : execAll l s = .next t) :
    execAll (l ++ m) s = execAll m t := by
  induction l generalizing s with
  | nil => cases h; rfl
  | cons i l ih =>
    rw [List.cons_append, execAll]
    rw [execAll] at h
    cases hi : exec i s with
    | next u => rw [hi] at h; exact ih h
    | fault r => rw [hi] at h; cases h
    | refused r => rw [hi] at h; cases h

theorem decodeCalls_append (l m : List SinkCall) : decodeCalls (l ++ m) = decodeCalls l ++ decodeCalls m :=
  List.filter_append ..

theorem decodeCalls_atCursor {s : State} {c : Cursor} (hc : s.cursor.Forward c) :
    decodeCalls (s.atCursor c).sink = decodeCalls s.sink := by
  obtain ⟨m, hm, hsink⟩ := atCursor_sink hc
  rw [hsink, decodeCalls_append, decodeCalls_of_markers hm, List.append_nil]

/-- A session under these parameters and this legal configuration, its next step not cancelled, before the
waveform `rest` on an idle line. -/
structure Receiving (p : Config) (v : Version) (spb : Nat) (s : State) (rest : List Sample) : Prop where
  config : s.config = p
  protocol : s.protocol = some v
  period : s.spb = spb
  timing : 2 ≤ spb
  halfBit : half p spb < spb
  mode : s.mode = .run
  cancel : s.cancel = false
  ahead : ∃ start, HighUntil s.samples s.pos start rest

section
variable {p : Config} {v : Version} {spb : Nat}

/-- `n` ITERs lead to a state before `rest`, with these sink calls besides markers. -/
structure Runs (p : Config) (v : Version) (spb : Nat) (s t : State) (n : Nat) (calls : List SinkCall)
    (rest : List Sample) : Prop where
  steps : execAll (List.replicate n .iter) s = .next t
  sink : decodeCalls t.sink = decodeCalls s.sink ++ calls
  advances : Advances s t
  receiving : Receiving p v spb t rest

theorem Runs.trans {s t u : State} {m n : Nat} {calls calls' : List SinkCall} {rest rest' : List Sample}
    (h : Runs p v spb s t m calls rest) (h' : Runs p v spb t u n calls' rest') :
    Runs p v spb s u (m + n) (calls ++ calls') rest' where
  steps := by rw [← List.replicate_append_replicate, execAll_append h.steps, h'.steps]
  sink := by rw [h'.sink, h.sink, List.append_assoc]
  advances := h.advances.trans h'.advances
  receiving := h'.receiving

/-- One step of a session that is not cancelled. -/
theorem Runs.of_unitStep {s t : State} {calls : List SinkCall} {rest rest' : List Sample}
    (h : Receiving p v spb s rest) (ht : unitStep s = .next t) (hmode : t.mode = .run)
    (hahead : ∃ start, HighUntil t.samples t.pos start rest')
    (hsink : decodeCalls t.sink = decodeCalls s.sink ++ calls) : Runs p v spb s t 1 calls rest' := by
  have hiter : exec .iter s = .next t := (execIter_of_run h.mode (.inl h.cancel)).trans ht
  have hadv := execIter_advances hiter
  exact ⟨by simp [execAll, hiter], hsink, hadv, hadv.config.trans h.config, hadv.protocol.trans h.protocol,
    (congrArg Controls.spb hadv.controls).trans h.period, h.timing, h.halfBit, hmode, hadv.cancel.trans h.cancel,
    hahead⟩

/-- Before a byte frame a byte state takes the byte without `ferr`, and the framer is then before what follows. -/
theorem Receiving.read {s : State} {b : Byte} {rest : List Sample}
    (h : Receiving p v spb s (byteWave p v spb b true ++ rest)) {k : ByteRec → State → Outcome}
    (hk : unitStep s = s.withByte k) :
    ∃ r c, r.value = b ∧ r.ferr = false ∧ (s.atCursor c).protocol = some v ∧
      ∀ t calls, k r (s.atCursor c) = .next t → ByteStep r (s.atCursor c) t →
        t.sink = (s.atCursor c).sink ++ calls → decodeCalls calls = calls → Runs p v spb s t 1 calls rest := by
  obtain rfl := h.config
  obtain rfl := h.period
  obtain ⟨start, hhigh⟩ := h.ahead
  obtain ⟨c, stop, hread, hrest⟩ := byteRead_of_frame (c := s.cursor) h.halfBit hhigh
  refine ⟨⟨b, start, c.pos, false⟩, c, rfl, rfl, h.protocol, fun t calls ht hstep hsink hcalls => ?_⟩
  obtain ⟨hmode, -, hpos, -⟩ := hstep.registers
  have hsamples : t.samples = s.samples := congrArg Surroundings.samples hstep.advances.surroundings
  have hforward := (byteRead_forward _ _ _ _ _).of_done hread
  refine .of_unitStep h ?_ (hmode.trans h.mode) ⟨stop, by rw [hsamples, hpos]; exact hrest⟩ ?_
  · rw [hk, State.withByte, withTiming_of_legal h.protocol h.timing, hread, onWire_done]
    exact ht
  · rw [hsink, decodeCalls_append, decodeCalls_atCursor hforward, hcalls]

/-! Units without flags. -/

/-- The unit carries this byte in this role and no flag. -/
structure FrameUnit.Clean (u : FrameUnit) (x : FrameState × Byte) : Prop where
  state : u.state = x.1
  value : u.rawValue = x.2
  flags : u.flags = Flags.empty

/-- As many ITERs as the list has bytes emit a clean unit for each of them, and nothing but markers besides. -/
def Takes (p : Config) (v : Version) (spb : Nat) (s t : State) (script : List (FrameState × Byte))
    (rest : List Sample) : Prop :=
  ∃ units : List FrameUnit, List.Forall₂ FrameUnit.Clean units script ∧
    Runs p v spb s t script.length (units.map .emitFrame) rest

theorem Takes.append {s t u : State} {script script' : List (FrameState × Byte)}
    {rest rest' : List Sample} (h : Takes p v spb s t script rest) (h' : Takes p v spb t u script' rest') :
    Takes p v spb s u (script ++ script') rest' := by
  obtain ⟨units, hclean, hruns⟩ := h
  obtain ⟨units', hclean', hruns'⟩ := h'
  refine ⟨units ++ units', List.rel_append hclean hclean', ?_⟩
  rw [List.map_append, List.length_append]
  exact hruns.trans hruns'

theorem byteFlags_of_clean {r : ByteRec} (h : r.ferr = false) : byteFlags r = Flags.empty := by
  rw [byteFlags, h]; rfl

theorem unitOf_clean (st : FrameState) {r : ByteRec} (h : r.ferr = false) :
    (unitOf st r (byteFlags r)).Clean (st, r.value) :=
  ⟨rfl, rfl, byteFlags_of_clean h⟩

/-- Before a byte frame a byte state whose step emits one clean unit takes that unit off the line. -/
theorem Receiving.take {s : State} {b : Byte} {rest : List Sample}
    (h : Receiving p v spb s (byteWave p v spb b true ++ rest)) {k : ByteRec → State → Outcome}
    (hk : unitStep s = s.withByte k) :
    ∃ r c, r.value = b ∧ r.ferr = false ∧ (s.atCursor c).protocol = some v ∧
      ∀ t u x, k r (s.atCursor c) = .next t → ByteStep r (s.atCursor c) t →
        FrameUnit.Clean u x → t.sink = (s.atCursor c).sink ++ [.emitFrame u] → Takes p v spb s t [x] rest := by
  obtain ⟨r, c, hvalue, hferr, hp, hruns⟩ := h.read hk
  exact ⟨r, c, hvalue, hferr, hp, fun t u x ht hstep hclean hsink =>
    ⟨[u], .cons hclean .nil, hruns t _ ht hstep hsink rfl⟩⟩

/-! The states of a packet one after another (42 R111 to R120). -/

/-- The registers between the header and the CRC of a packet. -/
structure InBody (s : State) (v : Version) (id1 id2 : Byte) (bytes : List Byte) (left : Nat) : Prop where
  id1 : s.id1 = id1
  id2 : s.id2 = id2
  absorbed : Absorbed s v bytes
  remaining : s.remaining.toNat = left

theorem acceptBreak_eq (s : State) {u : BreakRec} (hv : u.value = 0x00) :
    s.acceptBreak u =
      ((({ s with brkBits := u.bits }.emit .commit).crcReset).emitUnit (breakUnit u)).goto .headerId1 := if_pos hv

theorem acceptBreak_absorbed (s : State) {u : BreakRec} (hv : u.value = 0x00) (v : Version) :
    Absorbed (s.acceptBreak u) v [] := by
  rw [acceptBreak_eq s hv]
  exact (Absorbed.crcReset ({ s with brkBits := u.bits }.emit .commit) v).congr rfl

/-- The break field of a packet (42 R111). -/
theorem Receiving.takeBreak {s : State} {n : Nat} {rest : List Sample} (hn : 1 ≤ n)
    (hmin : p.minBrk.get v ≤ n)
    (h : Receiving p v spb s (line (n * spb) false ++ (line spb true ++ (line spb false ++ rest))))
    (hs : s.state = .noFrame) (hpend : s.pendingBreak = false) :
    ∃ t u, FrameUnit.Clean u (.headerBreak, 0x00) ∧
      Runs p v spb s t 1 [.commit, .emitFrame u] (line spb false ++ rest) ∧ t.state = .headerId1 ∧ Absorbed t v [] := by
  obtain rfl := h.config
  obtain rfl := h.period
  obtain ⟨start, hhigh⟩ := h.ahead
  obtain ⟨c, stop, hscan, hrest⟩ := brkScan_of_break (c := s.cursor) h.halfBit hn hmin hhigh
  have hforward := (brkScan_forward _ _ _ _ _).of_done hscan
  have hzero : (⟨0x00, start, c.pos, n, false, false⟩ : BreakRec).value = 0x00 := rfl
  obtain ⟨hsink, hstate, hmode⟩ := acceptBreak_of_zero (s.atCursor c) hzero
  refine ⟨_, breakUnit ⟨0x00, start, c.pos, n, false, false⟩, ⟨rfl, rfl, rfl⟩,
    .of_unitStep h ?_ (hmode.trans h.mode) ⟨stop, ?_⟩ ?_, hstate, acceptBreak_absorbed _ hzero v⟩
  · rw [unitStep, hs]
    dsimp only
    rw [State.withBreak, hpend, if_neg Bool.false_ne_true, withTiming_of_legal h.protocol h.timing, hscan,
      onWire_done]
    rfl
  · rw [acceptBreak_eq _ hzero]
    exact hrest
  · rw [hsink, decodeCalls_append, decodeCalls_atCursor hforward]
    rfl

/-- The first header byte (42 R113). -/
theorem Receiving.takeHeaderId1 {s : State} {b : Byte} {rest : List Sample}
    (h : Receiving p v spb s (byteWave p v spb b true ++ rest)) (hs : s.state = .headerId1)
    {bytes : List Byte} (habs : Absorbed s v bytes) :
    ∃ t, Takes p v spb s t [(.headerId1, b)] rest ∧ t.state = .headerId2 ∧ t.id1 = b ∧
      Absorbed t v (bytes ++ [b]) := by
  obtain ⟨r, c, rfl, hferr, hp, htake⟩ := h.take (k := execStHeaderid1) (by rw [unitStep, hs])
  have hstep : execStHeaderid1 r (s.atCursor c) = .next _ := withVersion_of_protocol hp _
  refine ⟨_, htake _ _ _ hstep (.headerId1 hs hstep) (unitOf_clean _ hferr) (by simp), rfl,
    by simp, ?_⟩
  exact ((habs.congr (t := { s.atCursor c with id1 := r.value }) rfl).absorb r.value).congr rfl

/-- The second header byte sets the length and chooses what follows (42 R114). -/
theorem Receiving.takeHeaderId2 {s : State} {b id1 : Byte} {rest : List Sample}
    (h : Receiving p v spb s (byteWave p v spb b true ++ rest)) (hs : s.state = .headerId2) (hid1 : s.id1 = id1)
    {bytes : List Byte} (habs : Absorbed s v bytes) :
    ∃ t, Takes p v spb s t [(.headerId2, b)] rest ∧
      InBody t v id1 b (bytes ++ [b]) (len p v id1 b) ∧ t.bodyLen = t.remaining ∧
      t.state = if instructionBit p v b then .instructionByte1 else afterHeader t.remaining := by
  obtain rfl := h.config
  obtain ⟨r, c, rfl, hferr, hp, htake⟩ := h.take (k := execStHeaderid2) (by rw [unitStep, hs])
  have hstep : execStHeaderid2 r (s.atCursor c) = .next _ := withVersion_of_protocol hp _
  refine ⟨_, htake _ _ _ hstep (.headerId2 hs hstep) (unitOf_clean _ hferr) (by simp),
    ⟨by simpa using hid1, by simp, ?_, ?_⟩, by simp, ?_⟩
  · exact ((habs.congr (t := { s.atCursor c with id2 := r.value, bodyLen := _, remaining := _ }) rfl).absorb
      r.value).congr rfl
  · subst hid1
    simpa using bodyLen_toNat s.config v s.id1 r.value
  · rw [State.goto_remaining, State.emitUnit_remaining, State.absorb_remaining]
    rfl

/-- The first instruction byte leaves the length registers alone (42 R115). -/
theorem Receiving.takeInstr1 {s : State} {b id1 id2 : Byte} {rest : List Sample} {left : Nat}
    (h : Receiving p v spb s (byteWave p v spb b true ++ rest)) (hs : s.state = .instructionByte1)
    {bytes : List Byte} (hbody : InBody s v id1 id2 bytes left) :
    ∃ t, Takes p v spb s t [(.instructionByte1, b)] rest ∧ InBody t v id1 id2 (bytes ++ [b]) left ∧
      t.bodyLen = s.bodyLen ∧ t.remaining = s.remaining ∧ t.state = .instructionByte2 := by
  obtain ⟨r, c, rfl, hferr, hp, htake⟩ := h.take (k := execStInstr1) (by rw [unitStep, hs])
  have hstep : execStInstr1 r (s.atCursor c) = .next _ := withVersion_of_protocol hp _
  refine ⟨_, htake _ _ _ hstep (.instr1 hs hstep) (unitOf_clean _ hferr) (by simp),
    ⟨by simpa using hbody.id1, by simpa using hbody.id2, ?_, by simpa using hbody.remaining⟩, by simp, by simp, rfl⟩
  exact ((hbody.absorbed.congr (t := s.atCursor c) rfl).absorb r.value).congr rfl

/-- The second instruction byte, before the whole body (42 R116). -/
theorem Receiving.takeInstr2 {s : State} {b id1 id2 : Byte} {rest : List Sample} {left : Nat}
    (h : Receiving p v spb s (byteWave p v spb b true ++ rest)) (hs : s.state = .instructionByte2)
    {bytes : List Byte} (hbody : InBody s v id1 id2 bytes left) (hwhole : s.bodyLen = s.remaining) :
    ∃ t, Takes p v spb s t [(.instructionByte2, b)] rest ∧ InBody t v id1 id2 (bytes ++ [b]) left ∧
      t.state = afterHeader t.remaining := by
  obtain ⟨r, c, rfl, hferr, hp, htake⟩ := h.take (k := execStInstr2) (by rw [unitStep, hs])
  have hstep : execStInstr2 r (s.atCursor c) = .next _ := withVersion_of_protocol hp _
  refine ⟨_, htake _ _ _ hstep (.instr2 hs hstep) (unitOf_clean _ hferr) (by simp),
    ⟨by simpa using hbody.id1, by simpa using hbody.id2, ?_, by simpa using hbody.remaining⟩, by simp [hwhole]⟩
  exact ((hbody.absorbed.congr (t := s.atCursor c) rfl).absorb r.value).congr rfl

/-- Where the packet goes after a data byte, by how many are left (42 R117). -/
theorem afterHeader_pred (x : BitVec 8) :
    (if x = 1 then FrameState.crcByte1 else .dataByte) = afterHeader (x - 1) := by
  unfold afterHeader
  exact if_congr (by bv_omega) rfl rfl

/-- A data byte, one fewer left after it (42 R117). -/
theorem Receiving.takeData {s : State} {b id1 id2 : Byte} {rest : List Sample} {left : Nat}
    (h : Receiving p v spb s (byteWave p v spb b true ++ rest)) {bytes : List Byte}
    (hbody : InBody s v id1 id2 bytes (left + 1)) (hs : s.state = afterHeader s.remaining) :
    ∃ t, Takes p v spb s t [(.dataByte, b)] rest ∧ InBody t v id1 id2 (bytes ++ [b]) left ∧
      t.state = afterHeader t.remaining := by
  have hleft := hbody.remaining
  replace hs : s.state = .dataByte := hs.trans (afterHeader_eq_dataByte.2 (by bv_omega))
  obtain ⟨r, c, rfl, hferr, hp, htake⟩ := h.take (k := execStData) (by rw [unitStep, hs])
  have hstep : execStData r (s.atCursor c) = .next _ := withVersion_of_protocol hp _
  have hclean : FrameUnit.Clean
      { unitOf .dataByte r (byteFlags r) with sequenceIndex := s.bodyLen - (s.remaining - 1) } (.dataByte, r.value) := ⟨rfl, rfl, byteFlags_of_clean hferr⟩
  refine ⟨_, htake _ _ _ hstep (.data hs hstep) hclean (by simp),
    ⟨by simpa using hbody.id1, by simpa using hbody.id2, ?_, ?_⟩, ?_⟩
  · exact ((hbody.absorbed.congr (t := { s.atCursor c with remaining := s.remaining - 1 }) rfl).absorb
      r.value).congr rfl
  · rw [State.goto_remaining, State.emitUnit_remaining, State.absorb_remaining]
    exact (pred_toNat (x := s.remaining) (by omega)).trans (by omega)
  · rw [State.goto_remaining, State.emitUnit_remaining, State.absorb_remaining]
    exact afterHeader_pred s.remaining

/-- The first CRC byte, when no data byte is left, is latched and not absorbed (42 R118). -/
theorem Receiving.takeCrc1 {s : State} {b id1 id2 : Byte} {rest : List Sample}
    (h : Receiving p v spb s (byteWave p v spb b true ++ rest)) {bytes : List Byte}
    (hbody : InBody s v id1 id2 bytes 0) (hs : s.state = afterHeader s.remaining) :
    ∃ t, Takes p v spb s t [(.crcByte1, b)] rest ∧ InBody t v id1 id2 bytes 0 ∧ t.crcB1 = b ∧
      t.state = .crcByte2 := by
  have hleft := hbody.remaining
  replace hs : s.state = .crcByte1 := hs.trans (if_pos (by bv_omega))
  obtain ⟨r, c, rfl, hferr, hp, htake⟩ := h.take (k := execStCrc1) (by rw [unitStep, hs])
  have hstep : execStCrc1 r (s.atCursor c) = .next _ := rfl
  exact ⟨_, htake _ _ _ hstep (.crc1 hs hstep) (unitOf_clean _ hferr) rfl,
    ⟨hbody.id1, hbody.id2, hbody.absorbed.congr rfl, hleft⟩, rfl, rfl⟩

/-- The ACK decision reads the parameters and the control registers only (45 R160, R161). -/
theorem Advances.expectAck {s t : State} (h : Advances s t) (v : Version) (id1 id2 : Byte) :
    expectAck t v id1 id2 = expectAck s v id1 id2 := by
  have hen : t.ackEn = s.ackEn := congrArg Controls.ackEn h.controls
  have htable : t.nodeAck = s.nodeAck := congrArg Controls.nodeAck h.controls
  simp only [Machine.expectAck, ackEnabled, hen, htable, h.config]

/-- The second CRC byte of a packet whose CRC is right (42 R119, 44 R154). -/
theorem Receiving.takeCrc2 {s : State} {b id1 id2 : Byte} {rest : List Sample}
    (h : Receiving p v spb s (byteWave p v spb b true ++ rest)) (hs : s.state = .crcByte2) {bytes : List Byte}
    (hbody : InBody s v id1 id2 bytes 0) (hcrc : crcRx p v s.crcB1 b = s.crc) :
    ∃ t u, FrameUnit.Clean u (.crcByte2, b) ∧
      Runs p v spb s t 1 (.emitFrame u :: if expectAck s v id1 id2 then [] else [.commit]) rest ∧
      t.state = if expectAck s v id1 id2 then .ackByte else .noFrame := by
  obtain rfl := h.config
  obtain ⟨r, c, rfl, hferr, hp, hruns⟩ := h.read (k := execStCrc2) (by rw [unitStep, hs])
  obtain ⟨rfl, rfl, -, -⟩ := hbody
  have hstep : execStCrc2 r (s.atCursor c) = .next _ := withVersion_of_protocol hp _
  have hmatch : crcMismatch (s.atCursor c) v r.value = false := by
    simpa [crcMismatch] using hcrc
  have hack : expectAck (s.atCursor c) v s.id1 s.id2 = expectAck s v s.id1 s.id2 := rfl
  refine ⟨_, unitOf .crcByte2 r (crc2Flags r (crcMismatch (s.atCursor c) v r.value)), ⟨rfl, rfl, ?_⟩,
    hruns _ _ hstep (.crc2 hs hstep) ?_ ?_, ?_⟩
  · rw [hmatch, unitOf, crc2Flags, byteFlags_of_clean hferr]; rfl
  · simp only [State.atCursor_id1, State.atCursor_id2, hack]
    split <;> simp
  · split <;> rfl
  · simp only [State.atCursor_id1, State.atCursor_id2, hack]
    split <;> rfl

end

end Sys2Proof.Machine
end

section
/-! PROOFS, family 30_encoding.md: packets built by PKT.V1, PKT.V2 and PKT.V2I. -/

namespace Sys2Proof.Machine

section
variable {p : Config} {v : Version} {spb : Nat}

/-! The parts of a packet, each a list of roles and bytes. -/

/-- The byte frames of a list of roles and bytes (30 R62). -/
def frames (p : Config) (v : Version) (spb : Nat) (script : List (FrameState × Byte)) : List Sample :=
  waveform p v spb (bytesStim (script.map (·.2)))

@[simp] theorem frames_nil : frames p v spb [] = [] := rfl

@[simp] theorem frames_cons (x : FrameState × Byte) (script : List (FrameState × Byte)) :
    frames p v spb (x :: script) = byteWave p v spb x.2 true ++ frames p v spb script := rfl

theorem frames_append (script script' : List (FrameState × Byte)) :
    frames p v spb (script ++ script') = frames p v spb script ++ frames p v spb script' := by
  induction script with
  | nil => rfl
  | cons x script ih => rw [List.cons_append, frames_cons, frames_cons, ih, List.append_assoc]

/-- The instruction bytes, where the header announces them (42 R114, 30 R63). -/
def instrUnits : Option (Byte × Byte) → List (FrameState × Byte)
  | none => []
  | some (i1, i2) => [(.instructionByte1, i1), (.instructionByte2, i2)]

/-- The data bytes. -/
def dataUnits (data : List Byte) : List (FrameState × Byte) := data.map (.dataByte, ·)

/-- The header bytes. -/
def headerUnits (id1 id2 : Byte) : List (FrameState × Byte) := [(.headerId1, id1), (.headerId2, id2)]

theorem Takes.nil {s : State} {rest : List Sample} (h : Receiving p v spb s rest) : Takes p v spb s s [] rest :=
  ⟨[], .nil, rfl, by simp, .refl s, h⟩

theorem Takes.receiving {s t : State} {script : List (FrameState × Byte)} {rest : List Sample}
    (h : Takes p v spb s t script rest) : Receiving p v spb t rest := by
  obtain ⟨_, -, hruns⟩ := h
  exact hruns.receiving

/-- The header of a packet. -/
theorem Receiving.takeHeader {s : State} {id1 id2 : Byte} {rest : List Sample}
    (h : Receiving p v spb s (frames p v spb (headerUnits id1 id2) ++ rest))
    (hs : s.state = .headerId1) (habs : Absorbed s v []) :
    ∃ t, Takes p v spb s t (headerUnits id1 id2) rest ∧
      InBody t v id1 id2 [id1, id2] (len p v id1 id2) ∧ t.bodyLen = t.remaining ∧
      t.state = if instructionBit p v id2 then .instructionByte1 else afterHeader t.remaining := by
  rw [headerUnits, frames_cons, frames_cons, frames_nil, List.append_nil, List.append_assoc] at h
  obtain ⟨t, htake, hstate, hid1, habs⟩ := h.takeHeaderId1 hs habs
  obtain ⟨u, htake', hbody⟩ := htake.receiving.takeHeaderId2 hstate hid1 habs
  exact ⟨u, htake.append htake', hbody⟩

/-- The instruction bytes of a packet. -/
theorem Receiving.takeInstr {s : State} {id1 id2 : Byte} {bytes : List Byte} {left : Nat}
    {instr : Option (Byte × Byte)} {rest : List Sample}
    (h : Receiving p v spb s (frames p v spb (instrUnits instr) ++ rest)) (hbody : InBody s v id1 id2 bytes left)
    (hwhole : s.bodyLen = s.remaining)
    (hs : s.state = if instr.isSome then .instructionByte1 else afterHeader s.remaining) :
    ∃ t, Takes p v spb s t (instrUnits instr) rest ∧
      InBody t v id1 id2 (bytes ++ (instrUnits instr).map (·.2)) left ∧ t.state = afterHeader t.remaining := by
  rcases instr with _ | ⟨i1, i2⟩
  · exact ⟨s, .nil h, by simpa [instrUnits] using hbody, hs⟩
  · simp only [instrUnits, frames_cons, frames_nil, List.append_nil, List.append_assoc] at h
    obtain ⟨t, htake, hbody, hlen, hrem, hstate⟩ := h.takeInstr1 hs hbody
    obtain ⟨u, htake', hbody, hstate⟩ := htake.receiving.takeInstr2 hstate hbody (by rw [hlen, hrem, hwhole])
    exact ⟨u, htake.append htake', by simpa [instrUnits] using hbody, hstate⟩

/-- The data bytes of a packet, as many as remain. -/
theorem Receiving.takeBody {data : List Byte} {s : State} {id1 id2 : Byte} {bytes : List Byte} {rest : List Sample}
    (h : Receiving p v spb s (frames p v spb (dataUnits data) ++ rest))
    (hbody : InBody s v id1 id2 bytes data.length) (hs : s.state = afterHeader s.remaining) :
    ∃ t, Takes p v spb s t (dataUnits data) rest ∧ InBody t v id1 id2 (bytes ++ data) 0 ∧
      t.state = afterHeader t.remaining := by
  induction data generalizing s bytes with
  | nil => exact ⟨s, .nil h, by simpa using hbody, hs⟩
  | cons b data ih =>
    rw [dataUnits, List.map_cons, frames_cons, List.append_assoc] at h
    obtain ⟨t, htake, hbody, hstate⟩ := h.takeData hbody hs
    obtain ⟨u, htake', hbody, hstate⟩ := ih htake.receiving hbody hstate
    exact ⟨u, htake.append htake', by simpa using hbody, hstate⟩

/-- The roles and bytes of a packet after its break field (30 R63). -/
def packetUnits (id1 id2 : Byte) (instr : Option (Byte × Byte)) (data : List Byte) (c1 c2 : Byte) :
    List (FrameState × Byte) :=
  headerUnits id1 id2 ++ (instrUnits instr ++ (dataUnits data ++ [(FrameState.crcByte1, c1), (.crcByte2, c2)]))

/-- A packet's waveform begins with a start bit. -/
theorem frames_packetUnits (id1 id2 c1 c2 : Byte) (instr : Option (Byte × Byte)) (data : List Byte) :
    ∃ tail, frames p v spb (packetUnits id1 id2 instr data c1 c2) = line spb false ++ tail := by
  rw [packetUnits, headerUnits, List.cons_append, frames_cons, byteWave, List.append_assoc, List.append_assoc]
  exact ⟨_, rfl⟩

/-- A packet's bytes before its CRC are even in number: the header, the instruction bytes, and an even body
(43 R141 to R143). -/
theorem packetBytes_even {id1 id2 : Byte} {data : List Byte} (hdata : data.length = len p v id1 id2)
    (instr : Option (Byte × Byte)) : ([id1, id2] ++ (instrUnits instr).map (·.2) ++ data).length % 2 = 0 := by
  have heven := (len_le_even p v id1 id2).2
  rcases instr with _ | ⟨i1, i2⟩ <;> simp [instrUnits] <;> omega

/-- A whole packet with the right CRC, its break field of `n` bits, on an idle line. -/
theorem Receiving.takePacket {s : State} {n : Nat} {id1 id2 c1 c2 : Byte} {instr : Option (Byte × Byte)}
    {data : List Byte} {rest : List Sample} (hn : 1 ≤ n) (hmin : p.minBrk.get v ≤ n)
    (h : Receiving p v spb s (line (n * spb) false ++
      (line spb true ++ (frames p v spb (packetUnits id1 id2 instr data c1 c2) ++ rest))))
    (hs : s.state = .noFrame) (hpend : s.pendingBreak = false) (hinstr : instr.isSome = instructionBit p v id2)
    (hdata : data.length = len p v id1 id2)
    (hcrc : crcRx p v c1 c2 = packetCrc p v ([id1, id2] ++ (instrUnits instr).map (·.2) ++ data)) :
    ∃ t units, List.Forall₂ FrameUnit.Clean units ((.headerBreak, 0x00) :: packetUnits id1 id2 instr data c1 c2) ∧
      Runs p v spb s t units.length
        (SinkCall.commit :: units.map SinkCall.emitFrame ++ if expectAck s v id1 id2 then [] else [.commit]) rest ∧
      t.state = if expectAck s v id1 id2 then .ackByte else .noFrame := by
  obtain ⟨tail, htail⟩ := frames_packetUnits (p := p) (v := v) (spb := spb) id1 id2 c1 c2 instr data
  rw [htail, List.append_assoc] at h
  obtain ⟨t0, u0, hclean0, hruns0, hstate, habs⟩ := h.takeBreak hn hmin hs hpend
  have h0 := hruns0.receiving
  rw [← List.append_assoc, ← htail, packetUnits, frames_append, frames_append, frames_append, List.append_assoc,
    List.append_assoc, List.append_assoc] at h0
  obtain ⟨t1, htake1, hbody, hwhole, hstate⟩ := h0.takeHeader hstate habs
  obtain ⟨t2, htake2, hbody, hstate⟩ := htake1.receiving.takeInstr hbody hwhole (by rw [hinstr]; exact hstate)
  obtain ⟨t3, htake3, hbody, hstate⟩ := htake2.receiving.takeBody (hdata ▸ hbody) hstate
  have h3 := htake3.receiving
  rw [frames_cons, frames_cons, frames_nil, List.append_nil, List.append_assoc] at h3
  obtain ⟨t4, htake4, hbody, hcrcB1, hstate⟩ := h3.takeCrc1 hbody hstate
  have hmatch : crcRx p v t4.crcB1 c2 = t4.crc := by
    rw [hcrcB1, hcrc, hbody.absorbed.crc_eq (packetBytes_even hdata instr), htake4.receiving.config]
  obtain ⟨t5, u5, hclean5, hruns5, hstate5⟩ := htake4.receiving.takeCrc2 hstate hbody hmatch
  obtain ⟨units, hclean, hruns⟩ := ((htake1.append htake2).append htake3).append htake4
  have hack := (hruns0.advances.trans hruns.advances).expectAck v id1 id2
  rw [hack] at hruns5 hstate5
  refine ⟨t5, u0 :: (units ++ [u5]), .cons hclean0 ?_, ?_, hstate5⟩
  · simpa [packetUnits] using List.rel_append hclean (.cons hclean5 .nil)
  · have hall := (hruns0.trans hruns).trans hruns5
    rw [← hclean.length_eq] at hall
    simpa [Nat.add_comm, Nat.add_left_comm] using hall

/-! The packets that the builders write (30 R81). -/

/-- The two CRC bytes of a packet in the order they are sent (44 R154, 30 R81). -/
def crcHalves (p : Config) (v : Version) (c : Word) : Byte × Byte :=
  if p.crcRxLowFirst.get v then (loByte c, hiByte c) else (hiByte c, loByte c)

theorem crcRx_crcHalves (c : Word) : crcRx p v (crcHalves p v c).1 (crcHalves p v c).2 = c := by
  unfold crcRx crcHalves
  split <;> exact hiByte_append_loByte c

/-- The roles and bytes after the break field, with the packet's CRC. -/
def builtUnits (p : Config) (v : Version) (id1 id2 : Byte) (instr : Option (Byte × Byte)) (data : List Byte) :
    List (FrameState × Byte) :=
  let c := crcHalves p v (packetCrc p v ([id1, id2] ++ (instrUnits instr).map (·.2) ++ data))
  packetUnits id1 id2 instr data c.1 c.2

theorem packetUnits_bytes (id1 id2 c1 c2 : Byte) (instr : Option (Byte × Byte)) (data : List Byte) :
    (packetUnits id1 id2 instr data c1 c2).map (·.2) =
      id1 :: id2 :: (instrUnits instr).map (·.2) ++ data ++ [c1, c2] := by
  simp [packetUnits, headerUnits, dataUnits, Function.comp_def]

theorem packetUnits_states (id1 id2 c1 c2 : Byte) (instr : Option (Byte × Byte)) (data : List Byte) :
    (packetUnits id1 id2 instr data c1 c2).map (·.1) =
      FrameState.headerId1 :: .headerId2 :: (instrUnits instr).map (·.1) ++
        List.replicate data.length FrameState.dataByte ++ [FrameState.crcByte1, .crcByte2] := by
  simp [packetUnits, headerUnits, dataUnits, Function.comp_def, List.map_const']

theorem waveform_packet (n : Nat) (script : List (FrameState × Byte)) :
    waveform p v spb (.brk n 1 :: bytesStim (script.map (·.2))) =
      line (n * spb) false ++ (line spb true ++ frames p v spb script) := by
  simp [waveform, Stim.wave, frames]

end

/-- PKT.V1, for V1Extended too, is the packet of a version without pairing that sends the high half first. -/
theorem pktV1_eq {v : Version} (hpairs : cfg.crcPairs.get v = false) (hfirst : cfg.crcRxLowFirst.get v = false)
    (id1 id2 : Byte) (data : List Byte) :
    pktV1 cfg id1 id2 data = .brk 13 1 :: bytesStim ((builtUnits cfg v id1 id2 none data).map (·.2)) := by
  rw [builtUnits, packetUnits_bytes, crcHalves, hfirst, packetCrc, hpairs]
  rfl

/-- PKT.V2 and PKT.V2I are the packet of V2, the instruction bytes before the data. -/
theorem pktV2_eq (id1 id2 : Byte) (instr : Option (Byte × Byte)) (data : List Byte) :
    pktV2 cfg id1 id2 ((instrUnits instr).map (·.2) ++ data) =
      .brk 11 1 :: bytesStim ((builtUnits cfg .v2 id1 id2 instr data).map (·.2)) := by
  have hpairs : cfg.crcPairs.get .v2 = true := rfl
  have hfirst : cfg.crcRxLowFirst.get .v2 = true := rfl
  rw [builtUnits, packetUnits_bytes, crcHalves, hfirst, packetCrc, hpairs]
  rfl

/-- What clean units carry: their roles and bytes, and no flag. -/
theorem forall₂_clean {units : List FrameUnit} {script : List (FrameState × Byte)}
    (h : List.Forall₂ FrameUnit.Clean units script) :
    (∀ u ∈ units, u.flags = Flags.empty) ∧ units.map (·.rawValue) = script.map (·.2) ∧
      units.map (·.state) = script.map (·.1) := by
  induction h with
  | nil => exact ⟨List.forall_mem_nil _, rfl, rfl⟩
  | cons hu _ ih =>
    obtain ⟨hflags, hvalues, hstates⟩ := ih
    exact ⟨List.forall_mem_cons.2 ⟨hu.flags, hflags⟩, congrArg₂ _ hu.value hvalues, congrArg₂ _ hu.state hstates⟩

/-- A built packet on an idle line: its units, its commits, and the state after it. -/
theorem Receiving.takeBuilt {p : Config} {v : Version} {spb : Nat} {s : State} {id1 id2 : Byte}
    {instr : Option (Byte × Byte)} {data : List Byte} {rest : List Sample} {n : Nat} (hn : 1 ≤ n)
    (hmin : p.minBrk.get v ≤ n)
    (h : Receiving p v spb s (waveform p v spb
      (.brk n 1 :: bytesStim ((builtUnits p v id1 id2 instr data).map (·.2))) ++ rest))
    (hs : s.state = .noFrame) (hpend : s.pendingBreak = false) (hinstr : instr.isSome = instructionBit p v id2)
    (hdata : data.length = len p v id1 id2) :
    ∃ (t : State) (units : List FrameUnit),
      execAll (List.replicate ((instrUnits instr).length + data.length + 5) .iter) s = .next t ∧
      decodeCalls t.sink = decodeCalls s.sink ++ SinkCall.commit :: units.map SinkCall.emitFrame ++
        (if expectAck s v id1 id2 then [] else [.commit]) ∧
      t.state = (if expectAck s v id1 id2 then .ackByte else .noFrame) ∧
      (∀ u ∈ units, u.flags = Flags.empty) ∧
      ∃ c1 c2 : Byte,
        units.map (·.rawValue) = 0x00 :: (packetUnits id1 id2 instr data c1 c2).map (·.2) ∧
        units.map (·.state) = .headerBreak :: (packetUnits id1 id2 instr data c1 c2).map (·.1) := by
  rw [waveform_packet, List.append_assoc, List.append_assoc] at h
  obtain ⟨t, units, hclean, hruns, hstate⟩ := h.takePacket hn hmin hs hpend hinstr hdata (crcRx_crcHalves _)
  obtain ⟨hflags, hvalues, hstates⟩ := forall₂_clean hclean
  have hlength : units.length = (instrUnits instr).length + data.length + 5 := by
    rw [hclean.length_eq]
    simp [packetUnits, headerUnits, dataUnits]
    omega
  exact ⟨t, units, hlength ▸ hruns.steps, by simpa using hruns.sink, hstate, hflags, _, _, hvalues, hstates⟩

/-- 30 R69 at the parameters of 00 R5. -/
theorem instructionBit_cfg (v : Version) (id2 : Byte) :
    instructionBit cfg v id2 = if v = .v2 then id2.getLsbD 0 else false := by
  cases v <;> rfl

/-- Settles O54: each builder writes the packet of its version, which an idle session takes unit by unit. -/
theorem builtPacketsDecodeCleanly : Obligations.BuiltPacketsDecodeCleanly := by
  intro s v h id1 id2 instr data rest hconfig hmode hcancel hs hpend hv hspb hh hdata hinstr packet instrBytes
    instrStates hwave
  rw [← instructionBit_cfg] at hinstr
  have hhalf : half cfg s.spb < s.spb := by rw [half_cfg]; omega
  have hbuilt : packet =
      .brk (cfg.minBrk.get v) 1 :: bytesStim ((builtUnits cfg v id1 id2 instr data).map (·.2)) := by
    cases v with
    | v1 =>
      obtain rfl : instr = none := Option.isNone_iff_eq_none.1 (Option.isSome_eq_false_iff.1 hinstr)
      exact pktV1_eq rfl rfl id1 id2 data
    | v1Extended =>
      obtain rfl : instr = none := Option.isNone_iff_eq_none.1 (Option.isSome_eq_false_iff.1 hinstr)
      exact pktV1_eq rfl rfl id1 id2 data
    | v2 =>
      rcases instr with _ | ⟨i1, i2⟩
      · exact pktV2_eq id1 id2 none data
      · exact pktV2_eq id1 id2 (some (i1, i2)) data
  rw [hbuilt, List.append_assoc] at hwave
  have receiving : Receiving cfg v s.spb s _ := ⟨hconfig, hv, rfl, hspb, hhalf, hmode, hcancel, _,
    .of_line hwave (Nat.le_refl _) (by omega)⟩
  obtain ⟨t, units, hsteps, hsink, hstate, hflags, c1, c2, hvalues, hstates⟩ :=
    receiving.takeBuilt (by cases v <;> decide) (Nat.le_refl _) hs hpend hinstr hdata
  rw [packetUnits_bytes] at hvalues
  rw [packetUnits_states] at hstates
  refine ⟨t, units, ?_, hsink, hstate, hflags, c1, c2, ?_, ?_⟩
  -- what the statement says of the instruction bytes is `instrUnits`, with and without them
  all_goals rcases instr with _ | ⟨i1, i2⟩ <;> assumption

end Sys2Proof.Machine
end

section
/-! PROOFS, family 40_break_scanner.md: what BRK_SCAN returns. -/

namespace Sys2Proof.Machine

/-! Runs of one level between two edges (20 R44). -/

/-- From `pos` the line has the level `b` for `n` samples, then the other level. -/
structure LevelRun (S : List Sample) (b : Sample) (pos n : Nat) : Prop where
  lasts : 1 ≤ n
  level : ∀ q, q < n → S[pos + q]? = some b
  edge : S[pos + n]? = some (!b)

section
variable {S : List Sample} {b : Sample} {pos n : Nat}

theorem LevelRun.first (h : LevelRun S b pos n) : S[pos]? = some b := h.level 0 h.lasts

theorem LevelRun.nextEdge (h : LevelRun S b pos n) : nextEdge S pos = some (pos + n) := by
  refine nextEdge_of_run (Nat.lt_add_of_pos_right h.lasts) (fun i hle hlt => ?_) h.edge
  obtain ⟨q, rfl⟩ := Nat.exists_eq_add_of_le hle
  exact h.level q (by omega)

theorem LevelRun.samplesUntilNextEdge {c : Cursor} (h : LevelRun S b c.pos n) :
    samplesUntilNextEdge S c = .done n c := by
  rw [Machine.samplesUntilNextEdge, h.nextEdge]
  dsimp only
  rw [Nat.add_sub_cancel_left]

theorem LevelRun.advanceToNextEdge {c : Cursor} (h : LevelRun S b c.pos n) :
    advanceToNextEdge S c = .done () { c with pos := c.pos + n } := by
  rw [Machine.advanceToNextEdge, h.nextEdge]

/-- The sample at the cursor and the next edge bound a run. -/
theorem LevelRun.of_nextEdge {q : Nat} (hb : S[pos]? = some b) (hq : Machine.nextEdge S pos = some q) :
    ∃ n, q = pos + n ∧ LevelRun S b pos n := by
  obtain ⟨x, hx, hlt, hedge, hrun⟩ := nextEdge_eq_some hq
  obtain rfl : x = b := Option.some.inj (hx.symm.trans hb)
  obtain ⟨n, rfl⟩ := Nat.exists_eq_add_of_lt hlt
  exact ⟨n + 1, rfl, by omega, fun i hi => hrun (pos + i) (by omega) (by omega), hedge⟩

theorem LevelRun.of_lines {m : Nat} {rest : List Sample} (h : S.drop pos = line n b ++ (line m (!b) ++ rest))
    (hn : 1 ≤ n) (hm : 1 ≤ m) : LevelRun S b pos n where
  lasts := hn
  level q hq := sample_of_line h (by omega) (by omega)
  edge := sample_of_line (drop_of_append h (line_length n b)) (Nat.le_refl _) (by omega)

end

/-! The search loop (40 R90). -/

/-- The end of a turn of the search, the cursor on the first of the `d` samples of a low run. -/
def judgeRun (S : List Sample) (spb minBrk turns : Nat) (toggling : Bool) (c : Cursor) (d : Nat) : Wire Found :=
  if minBrk ≤ rnd spb d then .done { bits := rnd spb d, toggling } c
  else brkSearch S spb minBrk turns toggling c

/-- The marker of a rising edge that the search passes over: only the first has one. -/
def toggleMark (toggling : Bool) (pos : Nat) : List SinkCall :=
  if toggling then [] else [.emitMarker pos .errToggling]

section
variable {S : List Sample} {spb minBrk turns : Nat} {toggling : Bool} {c : Cursor}

theorem judgeRun_of_long {d : Nat} (h : minBrk ≤ rnd spb d) :
    judgeRun S spb minBrk turns toggling c d = .done { bits := rnd spb d, toggling } c := if_pos h

theorem judgeRun_of_short {d : Nat} (h : rnd spb d < minBrk) :
    judgeRun S spb minBrk turns toggling c d = brkSearch S spb minBrk turns toggling c := if_neg (Nat.not_le.2 h)

/-- A turn that begins on a high line goes to the low run after it. -/
theorem brkSearch_of_high {h d : Nat} (hhigh : LevelRun S true c.pos h) (hlow : LevelRun S false (c.pos + h) d) :
    brkSearch S spb minBrk (turns + 1) toggling c =
      judgeRun S spb minBrk turns toggling { c with pos := c.pos + h } d := by
  rw [brkSearch, hhigh.advanceToNextEdge, Wire.bind_done, level_of_sample hlow.first, Wire.bind_done,
    if_neg Bool.false_ne_true, Wire.bind_done, LevelRun.samplesUntilNextEdge hlow, Wire.bind_done, Bool.or_false]
  rfl

/-- A turn that begins on a low line passes over the rising edge. -/
theorem brkSearch_of_low {a h d : Nat} (hlow : LevelRun S false c.pos a) (hhigh : LevelRun S true (c.pos + a) h)
    (hnext : LevelRun S false (c.pos + a + h) d) :
    brkSearch S spb minBrk (turns + 1) toggling c =
      judgeRun S spb minBrk turns true ⟨c.pos + a + h, c.trace ++ toggleMark toggling (c.pos + a)⟩ d := by
  have hmark : (if toggling then ({ c with pos := c.pos + a } : Cursor)
      else ({ c with pos := c.pos + a } : Cursor).mark .errToggling) =
        ⟨c.pos + a, c.trace ++ toggleMark toggling (c.pos + a)⟩ := by
    cases toggling <;> simp [toggleMark, Cursor.mark]
  rw [brkSearch, hlow.advanceToNextEdge, Wire.bind_done, level_of_sample hhigh.first, Wire.bind_done, if_pos rfl,
    hmark, LevelRun.advanceToNextEdge hhigh, Wire.bind_done, LevelRun.samplesUntilNextEdge hnext, Wire.bind_done,
    Bool.or_true]
  rfl

/-- A turn that leads on has come to a low run further on and judged it. -/
theorem brkSearch_succ_eq_done {found : Found} {c' : Cursor}
    (h : brkSearch S spb minBrk (turns + 1) toggling c = .done found c') :
    ∃ toggling' c1 d, c.pos < c1.pos ∧ LevelRun S false c1.pos d ∧
      judgeRun S spb minBrk turns toggling' c1 d = .done found c' := by
  have hturn := h
  rw [brkSearch] at h
  obtain ⟨_, c1, hadv, h⟩ := Wire.bind_eq_done h
  obtain ⟨q, hq, rfl⟩ := advanceToNextEdge_eq_done hadv
  obtain ⟨b, hb, -⟩ := nextEdge_eq_some hq
  obtain ⟨n, rfl, hrun⟩ := LevelRun.of_nextEdge hb hq
  rw [level_of_sample hrun.edge, Wire.bind_done] at h
  obtain ⟨_, c2, hpass, h⟩ := Wire.bind_eq_done h
  obtain ⟨d, _, huntil, -⟩ := Wire.bind_eq_done h
  obtain ⟨r, hr, -⟩ := samplesUntilNextEdge_eq_done huntil
  have hn := hrun.lasts
  cases b with
  | true =>
    cases hpass
    obtain ⟨d, -, hlow⟩ := LevelRun.of_nextEdge hrun.edge hr
    rw [brkSearch_of_high hrun hlow] at hturn
    refine ⟨_, _, d, ?_, ?_, hturn⟩
    · exact Nat.lt_add_of_pos_right hn
    · exact hlow
  | false =>
    obtain ⟨e, he, rfl⟩ := advanceToNextEdge_eq_done hpass
    have he' : nextEdge S (c.pos + n) = some e := by cases toggling <;> exact he
    obtain ⟨k, rfl, hhigh⟩ := LevelRun.of_nextEdge hrun.edge he'
    obtain ⟨d, -, hlow⟩ := LevelRun.of_nextEdge hhigh.edge hr
    rw [brkSearch_of_low hrun hhigh hlow] at hturn
    refine ⟨_, _, d, ?_, ?_, hturn⟩
    · dsimp only; omega
    · exact hlow

/-- The search ends on the first sample of a low run of at least the minimum (40 R91). -/
theorem brkSearch_eq_done {found : Found} {c' : Cursor}
    (h : brkSearch S spb minBrk turns toggling c = .done found c') :
    c.pos < c'.pos ∧ minBrk ≤ found.bits ∧ ∃ d, rnd spb d = found.bits ∧ LevelRun S false c'.pos d := by
  induction turns generalizing toggling c with
  | zero => cases h
  | succ turns ih =>
    obtain ⟨_, c1, d, hlt, hrun, hjudge⟩ := brkSearch_succ_eq_done h
    rcases Nat.lt_or_ge (rnd spb d) minBrk with hshort | hlong
    · rw [judgeRun_of_short hshort] at hjudge
      obtain ⟨hlt', hrest⟩ := ih hjudge
      exact ⟨hlt.trans hlt', hrest⟩
    · rw [judgeRun_of_long hlong] at hjudge
      cases hjudge
      exact ⟨hlt, hlong, d, rfl, hrun⟩

end

/-! The search on a line with low runs that are too short (40 R90). -/

/-- Low runs, each with the high run after it. -/
def passedLine (passed : List (Nat × Nat)) : List Sample :=
  passed.flatMap fun r => line r.1 false ++ line r.2 true

/-- The samples of those runs. -/
def passedLength (passed : List (Nat × Nat)) : Nat := (passed.map fun r => r.1 + r.2).sum

theorem passedLine_length (passed : List (Nat × Nat)) : (passedLine passed).length = passedLength passed := by
  simp [passedLine, passedLength, List.length_flatMap, line_length]

theorem length_le_passedLength {passed : List (Nat × Nat)} (h : ∀ r ∈ passed, 1 ≤ r.1) :
    passed.length ≤ passedLength passed := by
  rw [passedLength, ← List.length_map (fun r : Nat × Nat => r.1 + r.2)]
  refine List.length_le_sum_of_one_le _ fun n hn => ?_
  obtain ⟨r, hr, rfl⟩ := List.mem_map.1 hn
  exact Nat.le_add_right_of_le (h r hr)

theorem passedLine_cons (r : Nat × Nat) (passed : List (Nat × Nat)) (rest : List Sample) :
    passedLine (r :: passed) ++ rest = line r.1 false ++ (line r.2 true ++ (passedLine passed ++ rest)) := by
  simp [passedLine]

theorem passedLength_cons (r : Nat × Nat) (passed : List (Nat × Nat)) :
    passedLength (r :: passed) = r.1 + r.2 + passedLength passed := by
  simp [passedLength]

section
variable {S rest : List Sample} {spb minBrk d k : Nat} (hd : 1 ≤ d) (hk : 1 ≤ k) (hmin : minBrk ≤ rnd spb d)
include hd hk hmin

/-- From a low line the search passes over the first rising edge and every run that is too short. -/
theorem brkSearch_of_passed {passed : List (Nat × Nat)}
    (hpassed : ∀ r ∈ passed, 1 ≤ r.1 ∧ 1 ≤ r.2 ∧ rnd spb r.1 < minBrk) {a h turns : Nat} {toggling : Bool}
    {c : Cursor} (ha : 1 ≤ a) (hh : 1 ≤ h)
    (hline : S.drop c.pos =
      line a false ++ (line h true ++ (passedLine passed ++ (line d false ++ (line k true ++ rest))))) :
    brkSearch S spb minBrk (turns + passed.length + 1) toggling c =
      .done { bits := rnd spb d, toggling := true }
        ⟨c.pos + a + h + passedLength passed, c.trace ++ toggleMark toggling (c.pos + a)⟩ := by
  induction passed generalizing a h toggling c with
  | nil =>
    have hhigh := drop_of_append hline (line_length a _)
    have hnext := drop_of_append hhigh (line_length h _)
    rw [brkSearch_of_low (.of_lines hline ha hh) (.of_lines hhigh hh hd) (.of_lines hnext hd hk),
      judgeRun_of_long hmin]
    rfl
  | cons r passed ih =>
    obtain ⟨⟨hl, hu, hshort⟩, hpassed⟩ := List.forall_mem_cons.1 hpassed
    rw [passedLine_cons] at hline
    have hhigh := drop_of_append hline (line_length a _)
    have hnext := drop_of_append hhigh (line_length h _)
    rw [brkSearch_of_low (.of_lines hline ha hh) (.of_lines hhigh hh hl) (.of_lines hnext hl hu),
      judgeRun_of_short hshort, List.length_cons, ← Nat.add_assoc, ih hpassed hl hu hnext, passedLength_cons]
    simp [toggleMark, Nat.add_assoc]

/-- What the search passes over before the break field: a low line at the cursor, or the low runs that are too short.
Its first rising edge has the marker. -/
theorem brkSearch_of_line {passed : List (Nat × Nat)}
    (hpassed : ∀ r ∈ passed, 1 ≤ r.1 ∧ 1 ≤ r.2 ∧ rnd spb r.1 < minBrk) {g h turns : Nat} {c : Cursor} (hh : 1 ≤ h)
    (hline : S.drop c.pos =
      line g false ++ (line h true ++ (passedLine passed ++ (line d false ++ (line k true ++ rest))))) :
    brkSearch S spb minBrk (turns + passed.length + 1) false c =
      .done { bits := rnd spb d, toggling := decide (0 < g ∨ passed ≠ []) }
        ⟨c.pos + g + h + passedLength passed, c.trace ++
          if 0 < g then [.emitMarker (c.pos + g) .errToggling]
          else (passed.take 1).map fun r => .emitMarker (c.pos + h + r.1) .errToggling⟩ := by
  rcases Nat.eq_zero_or_pos g with rfl | hg
  · rw [line, List.replicate_zero, List.nil_append] at hline
    have hnext := drop_of_append hline (line_length h _)
    cases passed with
    | nil =>
      rw [brkSearch_of_high (.of_lines hline hh hd) (.of_lines hnext hd hk), judgeRun_of_long hmin]
      simp [passedLength]
    | cons r passed =>
      obtain ⟨⟨hl, hu, hshort⟩, hpassed⟩ := List.forall_mem_cons.1 hpassed
      rw [passedLine_cons] at hline hnext
      rw [brkSearch_of_high (.of_lines hline hh hl) (.of_lines hnext hl hu), judgeRun_of_short hshort,
        List.length_cons, ← Nat.add_assoc, brkSearch_of_passed hd hk hmin hpassed hl hu hnext, passedLength_cons]
      simp [toggleMark, Nat.add_assoc]
  · rw [brkSearch_of_passed hd hk hmin hpassed hg hh hline]
    simp [toggleMark, hg]

end

/-! The marker loop (40 R90). -/

/-- The marker loop marks the level of the line once in each bit period. -/
theorem brkMarks_of_samples {S : List Sample} {spb n : Nat} {c : Cursor} {f : Nat → Bool}
    (hlevel : ∀ i, i < n → S[c.pos + i * spb]? = some (f i)) (hend : c.pos + n * spb < S.length) :
    brkMarks S spb n c = .done () ⟨c.pos + n * spb,
      c.trace ++ (List.range n).map fun i => .emitMarker (c.pos + i * spb) (bitMarker (f i))⟩ := by
  induction n generalizing c f with
  | zero => simp [brkMarks]
  | succ n ih =>
    have hshift (i : Nat) : c.pos + spb + i * spb = c.pos + (i + 1) * spb := by ring
    have hfirst : S[c.pos]? = some (f 0) := by simpa using hlevel 0 n.succ_pos
    have hadv : (c.mark (bitMarker (f 0))).pos + spb < S.length := by
      have := hshift n
      dsimp only [Cursor.mark]
      omega
    rw [brkMarks, level_of_sample hfirst, Wire.bind_done, advance_of_lt hadv, Wire.bind_done,
      ih (f := fun i => f (i + 1)) (fun i hi => (hshift i).symm ▸ hlevel (i + 1) (Nat.succ_lt_succ hi))
        ((hshift n).symm ▸ hend)]
    simp [Cursor.mark, hshift, List.range_succ_eq_map, Function.comp_def]

theorem brkMarks_pos {S : List Sample} {spb n : Nat} {c c' : Cursor} (h : brkMarks S spb n c = .done () c') :
    c'.pos = c.pos + n * spb := by
  induction n generalizing c with
  | zero => cases h; simp
  | succ n ih =>
    obtain ⟨b, c1, hlevel, hrest⟩ := Wire.bind_eq_done h
    obtain ⟨rfl, -⟩ := level_eq_done hlevel
    obtain ⟨_, c2, hadv, hmarks⟩ := Wire.bind_eq_done hrest
    obtain ⟨rfl, -⟩ := advance_eq_done hadv
    rw [ih hmarks, Cursor.mark]
    ring

/-- The middle of a bit that a run counts for is not past the run's end (20 R48). -/
theorem half_add_le_of_lt_rnd {p : Config} {spb d i : Nat} (hhalf : p.halfDivisor = 2) (hspb : 0 < spb)
    (hi : i < rnd spb d) : half p spb + i * spb ≤ d := by
  have hthreshold : (2 * (i + 1) - 1) * spb ≤ 2 * d := (le_rnd_iff d hspb (by omega)).1 hi
  have hbits : (2 * (i + 1) - 1) * spb = 2 * (i * spb) + spb := by
    rw [show 2 * (i + 1) - 1 = 2 * i + 1 by omega]
    ring
  rw [half, hhalf]
  omega

/-- The level in the middle of each bit that a low run counts for: high at most in the last. -/
theorem LevelRun.level_of_bit {p : Config} {S : List Sample} {spb pos d i : Nat} (h : LevelRun S false pos d)
    (hhalf : p.halfDivisor = 2) (hspb : 0 < spb) (hi : i < rnd spb d) :
    S[pos + half p spb + i * spb]? = some (decide (d ≤ half p spb + i * spb)) := by
  rw [Nat.add_assoc]
  rcases Nat.lt_or_eq_of_le (half_add_le_of_lt_rnd hhalf hspb hi) with hlt | heq
  · rw [h.level _ hlt, decide_eq_false (Nat.not_le.2 hlt)]
  · rw [heq, h.edge, decide_eq_true (Nat.le_refl d)]
    rfl

/-! The stop bit (40 R90, R92). -/

/-- Where a scan ends: half a bit after the stop-bit sample, or just before the edge `gap` samples after it. -/
def stopEnd (mid stop gap : Nat) : Nat := if mid < gap then stop + mid else stop + (gap - 1)

/-- The markers of the stop bit. -/
def stopMarks (mid stop gap : Nat) (high : Bool) : List SinkCall :=
  [.emitMarker stop (if high then .stopBit else .errFraming)] ++
    if gap < mid then [.emitMarker (stopEnd mid stop gap) .stopShort] else []

/-- The end of a scan for every level and length of the stop bit. -/
theorem brkStop_of_run {p : Config} {S : List Sample} {spb gap : Nat} {b : Bool} {c : Cursor}
    (h : LevelRun S b c.pos gap) :
    brkStop p S spb c =
      .done (!b) ⟨stopEnd (half p spb) c.pos gap, c.trace ++ stopMarks (half p spb) c.pos gap b⟩ := by
  have hgap := h.lasts
  have huntil (k : MarkerKind) : samplesUntilNextEdge S (c.mark k) = .done gap (c.mark k) :=
    LevelRun.samplesUntilNextEdge (c := c.mark k) h
  have hadvance (k : MarkerKind) {n : Nat} (hn : n < gap) :
      advance S n (c.mark k) = .done () { c.mark k with pos := c.pos + n } := advance_of_sample (h.level n hn)
  rw [brkStop, level_of_sample h.first, Wire.bind_done]
  dsimp only
  rw [huntil, Wire.bind_done]
  rcases Nat.lt_trichotomy (half p spb) gap with hlong | heq | hshort
  · rw [if_pos hlong, hadvance _ hlong]
    simp [stopEnd, stopMarks, Cursor.mark, hlong, Nat.lt_asymm hlong]
  · rw [if_neg (by omega), hadvance _ (by omega)]
    simp [stopEnd, stopMarks, Cursor.mark, heq]
  · rw [if_neg (by omega), hadvance _ (by omega)]
    simp [stopEnd, stopMarks, Cursor.mark, hshort, Nat.lt_asymm hshort]

/-- The stop bit of a scan that returns is a run of one level, and the scan ends as that run says. -/
theorem brkStop_eq_done {p : Config} {S : List Sample} {spb : Nat} {ferr : Bool} {c c' : Cursor}
    (h : brkStop p S spb c = .done ferr c') :
    ∃ gap, LevelRun S (!ferr) c.pos gap ∧ c'.pos = stopEnd (half p spb) c.pos gap := by
  obtain ⟨b, c1, hlevel, hrest⟩ := Wire.bind_eq_done h
  obtain ⟨rfl, hb⟩ := level_eq_done hlevel
  obtain ⟨_, c2, huntil, -⟩ := Wire.bind_eq_done hrest
  obtain ⟨q, hq, -⟩ := samplesUntilNextEdge_eq_done huntil
  obtain ⟨gap, -, hrun⟩ := LevelRun.of_nextEdge hb hq
  rw [brkStop_of_run hrun] at h
  cases h
  exact ⟨gap, by rwa [Bool.not_not], rfl⟩

/-- The cursor stays inside the stop bit's run, at most half a bit on. -/
theorem stopEnd_bounds {mid stop gap : Nat} (hgap : 1 ≤ gap) :
    stop ≤ stopEnd mid stop gap ∧ stopEnd mid stop gap ≤ stop + mid ∧ stopEnd mid stop gap < stop + gap := by
  unfold stopEnd
  split <;> omega

/-! BRK_SCAN (40 R90 to R92). -/

/-- After the search the scan marks the bits of the run it found and ends in the stop bit. -/
theorem brkScan_of_search {p : Config} {S : List Sample} {spb d gap : Nat} {v : Version} {b toggling : Bool}
    {c c1 : Cursor} (hhalf : p.halfDivisor = 2) (hspb : 0 < spb)
    (hsearch : brkSearch S spb (p.minBrk.get v) (S.length + 1) false c =
      .done { bits := rnd spb d, toggling } c1)
    (hlow : LevelRun S false c1.pos d)
    (hstop : LevelRun S b (c1.pos + half p spb + rnd spb d * spb) gap) :
    let stop := c1.pos + half p spb + rnd spb d * spb
    let fin := stopEnd (half p spb) stop gap
    brkScan p S spb v c = .done
      { value := 0x00, startPos := c1.pos, endPos := fin, bits := rnd spb d, toggling, ferr := !b }
      ⟨fin, c1.trace ++
        (List.range (rnd spb d)).map (fun i => .emitMarker (c1.pos + half p spb + i * spb)
          (if d ≤ half p spb + i * spb then .bitOne else .bitZero)) ++
        stopMarks (half p spb) stop gap b⟩ := by
  have hend : c1.pos + half p spb + rnd spb d * spb < S.length := (List.getElem?_eq_some_iff.1 hstop.first).1
  rw [brkScan, hsearch, Wire.bind_done, advance_of_lt (by omega), Wire.bind_done,
    brkMarks_of_samples (fun i hi => hlow.level_of_bit hhalf hspb hi) hend, Wire.bind_done, brkStop_of_run hstop]
  simp [bitMarker]

theorem exec_brkScan (s : State) : exec .brkScan s = execBrkScan s := rfl

/-- Settles O41: the search passes over the low runs that are too short, and the scan ends in the stop bit of the
run it finds. -/
theorem breakScanFindsBreak : Obligations.BreakScanFindsBreak := by
  intro s v g h d gap b passed rest hv hhalf hspb hh hd hgap hpassed hmin hline mid n start stop fin hlevel hedge
  have hline' : s.samples.drop s.cursor.pos =
      line g false ++ (line h true ++ (passedLine passed ++ (line d false ++ (line 1 true ++ rest)))) := by
    simpa [passedLine, line, State.cursor] using hline
  have hfield : s.samples.drop start = line d false ++ (line 1 true ++ rest) :=
    drop_of_append (drop_of_append (drop_of_append hline' (line_length g _)) (line_length h _))
      (passedLine_length passed)
  have hlow : LevelRun s.samples false start d := .of_lines hfield hd (Nat.le_refl 1)
  have hturns : passed.length ≤ s.samples.length := by
    have hstart : s.pos + g + h + passedLength passed < s.samples.length :=
      (List.getElem?_eq_some_iff.1 hlow.first).1
    have hpassedLength := length_le_passedLength fun r hr => (hpassed r hr).1
    omega
  obtain ⟨turns, hturns⟩ := Nat.exists_eq_add_of_le' hturns
  have hsearch := brkSearch_of_line (turns := turns) hd (Nat.le_refl 1) hmin hpassed hh hline'
  rw [← hturns] at hsearch
  have hscan := brkScan_of_search hhalf (by omega) hsearch hlow ⟨hgap, hlevel, hedge⟩
  rw [exec_brkScan, execBrkScan, withTiming_of_legal hv hspb, hscan, onWire_done]
  simp only [State.returns, State.atCursor, State.cursor, stopMarks, List.nil_append, ← List.append_assoc]
  rfl

/-- Settles O42: the search ends on a low run of at least the minimum, and the stop bit is a run of one level that
the scan does not leave. -/
theorem breakScanReturnsValidBreak : Obligations.BreakScanReturnsValidBreak := by
  intro p S spb v c c' u _ h
  obtain ⟨found, c1, hsearch, h⟩ := Wire.bind_eq_done h
  obtain ⟨_, c2, hadv, h⟩ := Wire.bind_eq_done h
  obtain ⟨rfl, -⟩ := advance_eq_done hadv
  obtain ⟨_, c3, hmarks, h⟩ := Wire.bind_eq_done h
  obtain ⟨ferr, c4, hstop, h⟩ := Wire.bind_eq_done h
  cases h
  obtain ⟨hahead, hmin, d, hbits, hlow⟩ := brkSearch_eq_done hsearch
  obtain ⟨gap, hrun, hend⟩ := brkStop_eq_done hstop
  rw [brkMarks_pos hmarks] at hrun hend
  obtain ⟨hge, hle, hlt⟩ := stopEnd_bounds (mid := half p spb)
    (stop := c1.pos + half p spb + found.bits * spb) hrun.lasts
  dsimp only at hend ⊢
  rw [hend]
  refine ⟨rfl, hmin, hahead, rfl, ⟨d, hbits, hlow.level, hlow.edge⟩, hge, hle, fun q hq hqe => ?_⟩
  obtain ⟨i, rfl⟩ := Nat.exists_eq_add_of_le hq
  exact hrun.level i (by omega)

end Sys2Proof.Machine
end

section
/-! PROOFS, family 41_byte_deserializer.md: what BYTE_READ returns. -/

namespace Sys2Proof.Machine

/-! Half a bit (00 R5, 20 R48). -/

theorem half_lt {p : Config} {spb : Nat} (hhalf : p.halfDivisor = 2) (hspb : 2 ≤ spb) : half p spb < spb := by
  rw [half, hhalf]
  omega

/-- A run that lasts past the middle of the bit after `n` bits counts as one more (20 R48). -/
theorem le_rnd_of_past_half {p : Config} {spb n d : Nat} (hhalf : p.halfDivisor = 2) (hspb : 0 < spb)
    (h : half p spb + n * spb < d) : n + 1 ≤ rnd spb d := by
  have hbits : (2 * (n + 1) - 1) * spb = 2 * (n * spb) + spb := by
    rw [show 2 * (n + 1) - 1 = 2 * n + 1 by omega]
    ring
  rw [half, hhalf] at h
  rw [le_rnd_iff d hspb (by omega)]
  omega

/-! The start bit (41 R100). -/

/-- The marker of a resynchronisation, when the line is low at the cursor for `g` samples. -/
def resyncMarks (pos g : Nat) : List SinkCall := if 0 < g then [.emitMarker (pos + g) .errFraming] else []

/-- From a low line the read passes over the rising edge. -/
theorem byteStart_of_low {S : List Sample} {g h : Nat} {c : Cursor} (hlow : LevelRun S false c.pos g)
    (hhigh : LevelRun S true (c.pos + g) h) :
    byteStart S c = .done true ⟨c.pos + g + h, c.trace ++ [.emitMarker (c.pos + g) .errFraming]⟩ := by
  have hadvance : advanceToNextEdge S (({ c with pos := c.pos + g } : Cursor).mark .errFraming) = _ :=
    LevelRun.advanceToNextEdge hhigh
  rw [byteStart, hlow.advanceToNextEdge, Wire.bind_done, level_of_sample hhigh.first, Wire.bind_done, if_pos rfl,
    hadvance]
  rfl

/-- The start bit after a line that is low for `g` samples and then high. -/
theorem byteStart_of_line {S rest : List Sample} {g h n : Nat} {c : Cursor} (hh : 1 ≤ h) (hn : 1 ≤ n)
    (hline : S.drop c.pos = line g false ++ (line h true ++ (line n false ++ rest))) :
    byteStart S c = .done (decide (0 < g)) ⟨c.pos + g + h, c.trace ++ resyncMarks c.pos g⟩ := by
  rcases Nat.eq_zero_or_pos g with rfl | hg
  · rw [line, List.replicate_zero, List.nil_append] at hline
    rw [byteStart_of_high (.of_line hline (Nat.le_refl _) (by omega)) hn]
    simp [resyncMarks]
  · rw [byteStart_of_low (.of_lines hline hg hh) (.of_lines (drop_of_append hline (line_length g _)) hh hn)]
    simp [resyncMarks, hg]

/-- A read starts on a falling edge ahead of the cursor. -/
theorem byteStart_eq_done {S : List Sample} {c c' : Cursor} {ferr : Bool} (h : byteStart S c = .done ferr c') :
    c.pos < c'.pos := by
  obtain ⟨_, c1, hedge, h⟩ := Wire.bind_eq_done h
  obtain ⟨q, hq, rfl⟩ := advanceToNextEdge_eq_done hedge
  obtain ⟨high, c2, hlevel, h⟩ := Wire.bind_eq_done h
  obtain ⟨rfl, -⟩ := level_eq_done hlevel
  obtain ⟨_, c3, hpass, h⟩ := Wire.bind_eq_done h
  cases h
  have hahead := (nextEdge_lt hq).1
  cases ferr with
  | false => cases hpass; exact hahead
  | true =>
    obtain ⟨r, hr, rfl⟩ := advanceToNextEdge_eq_done hpass
    exact hahead.trans (nextEdge_lt hr).1

/-! The data bits (41 R100). -/

theorem line_add (m n : Nat) (b : Sample) : line (m + n) b = line m b ++ line n b := by
  rw [line, List.replicate_add, line, line]

/-- The middle of each data bit. -/
theorem sample_of_dataWave {p : Config} {S rest : List Sample} {spb start mid : Nat} {v : Version} {b : Byte}
    (hmid : mid < spb) {n k : Nat} (hwave : S.drop start = dataWave p v spb b n k ++ rest) {i : Nat} (hi : i < n) :
    S[start + mid + i * spb]? = some (dataBit p v b (k + i)) := by
  induction n generalizing start k i with
  | zero => omega
  | succ n ih =>
    rw [dataWave, List.append_assoc] at hwave
    cases i with
    | zero => exact sample_of_line hwave (by omega) (by omega)
    | succ i =>
      have hsample := ih (drop_of_append hwave (line_length spb _)) (i := i) (by omega)
      rwa [show start + spb + mid + i * spb = start + mid + (i + 1) * spb by ring, Nat.add_right_comm k 1 i] at hsample

/-- The data loop marks the level of the line once in each bit period. -/
theorem readBits_cursor {p : Config} {S : List Sample} {spb : Nat} {v : Version} {n : Nat} {value x : Byte}
    {f : Nat → Bool} {c c' : Cursor} (h : readBits p S spb v n value c = .done x c')
    (hlevel : ∀ i, i < n → S[c.pos + (i + 1) * spb]? = some (f i)) :
    c' = ⟨c.pos + n * spb,
      c.trace ++ (List.range n).map fun i => .emitMarker (c.pos + (i + 1) * spb) (bitMarker (f i))⟩ := by
  induction n generalizing value c f with
  | zero => cases h; simp
  | succ n ih =>
    obtain ⟨_, c1, hadvance, h⟩ := Wire.bind_eq_done h
    obtain ⟨b, c2, hb, h⟩ := Wire.bind_eq_done h
    obtain ⟨rfl, -⟩ := advance_eq_done hadvance
    obtain ⟨rfl, hsample⟩ := level_eq_done hb
    have hfirst : S[c.pos + spb]? = some (f 0) := by simpa using hlevel 0 n.succ_pos
    obtain rfl : b = f 0 := Option.some.inj (hsample.symm.trans hfirst)
    have hshift (i : Nat) : c.pos + spb + i * spb = c.pos + (i + 1) * spb := by ring
    rw [ih h (f := fun i => f (i + 1)) fun i hi => (hshift (i + 1)).symm ▸ hlevel (i + 1) (Nat.succ_lt_succ hi)]
    simp [Cursor.mark, hshift, List.range_succ_eq_map, Function.comp_def]

theorem dataBit_zero (p : Config) (v : Version) (k : Nat) : dataBit p v 0x00 k = false := by
  simp [dataBit]

/-- The data bits of 0x00 are one low run. -/
theorem dataWave_zero (p : Config) (v : Version) (spb n k : Nat) :
    dataWave p v spb 0x00 n k = line (n * spb) false := by
  induction n generalizing k with
  | zero => simp [dataWave, line]
  | succ n ih =>
    rw [dataWave, ih, dataBit_zero, ← line_add, Nat.succ_mul, Nat.add_comm]

/-! BYTE_READ up to the stop bit (41 R100). -/

/-- The markers of a read before the stop bit's, the line low at the cursor for `g` samples. -/
def readMarks (p : Config) (v : Version) (spb : Nat) (value : Byte) (pos g start : Nat) : List SinkCall :=
  resyncMarks pos g ++ [.emitMarker (start + half p spb) .startBit] ++
    (List.range 8).map fun k => .emitMarker (start + half p spb + (k + 1) * spb) (bitMarker (dataBit p v value k))

/-- A line low for `g` samples, high for `h`, then the start bit and the data bits of a byte, then the level `b` of
the stop bit for `n` samples. -/
structure FrameLine (p : Config) (S : List Sample) (spb : Nat) (v : Version) (pos g h : Nat) (value : Byte) (n : Nat)
    (b : Sample) (rest : List Sample) : Prop where
  halfBit : half p spb < spb
  high : 1 ≤ h
  stopBit : half p spb < n
  samples : S.drop pos =
    line g false ++ (line h true ++ (line spb false ++ (dataWave p v spb value 8 0 ++ (line n b ++ rest))))

section
variable {p : Config} {S rest : List Sample} {spb : Nat} {v : Version} {pos g h n : Nat} {value : Byte} {b : Sample}

theorem FrameLine.drop_start (f : FrameLine p S spb v pos g h value n b rest) :
    S.drop (pos + g + h) = line spb false ++ (dataWave p v spb value 8 0 ++ (line n b ++ rest)) :=
  drop_of_append (drop_of_append f.samples (line_length g _)) (line_length h _)

theorem FrameLine.drop_data (f : FrameLine p S spb v pos g h value n b rest) :
    S.drop (pos + g + h + spb) = dataWave p v spb value 8 0 ++ (line n b ++ rest) :=
  drop_of_append f.drop_start (line_length spb _)

theorem FrameLine.drop_stop (f : FrameLine p S spb v pos g h value n b rest) :
    S.drop (pos + g + h + 9 * spb) = line n b ++ rest := by
  rw [← drop_of_append f.drop_data (dataWave_length p v spb value 8 0)]
  congr 1
  ring

/-- Where the level of the stop bit ends. -/
theorem FrameLine.drop_end (f : FrameLine p S spb v pos g h value n b rest) :
    S.drop (pos + g + h + 9 * spb + n) = rest :=
  drop_of_append f.drop_stop (line_length n b)

/-- From the stop-bit sample to the end of its level. -/
theorem FrameLine.stop_run {m : Nat} (f : FrameLine p S spb v pos g h value n b (line m (!b) ++ rest)) (hm : 1 ≤ m) :
    LevelRun S b (pos + g + h + half p spb + 9 * spb) (n - half p spb) where
  lasts := Nat.sub_pos_of_lt f.stopBit
  level q hq := sample_of_line f.drop_stop (by omega) (by omega)
  edge := by
    have hstop := f.stopBit
    exact sample_of_line f.drop_end (by omega) (by omega)

/-- A low run that lasts past the stop-bit sample is the data bits of 0x00 and a low stop bit. -/
theorem FrameLine.of_longLow {d : Nat} (hhalf : half p spb < spb) (hh : 1 ≤ h) (hlong : half p spb + 9 * spb < d)
    (hline : S.drop pos = line g false ++ (line h true ++ (line d false ++ rest))) :
    FrameLine p S spb v pos g h 0x00 (d - 9 * spb) false rest where
  halfBit := hhalf
  high := hh
  stopBit := by omega
  samples := by
    have hbits : spb + (8 * spb + (d - 9 * spb)) = d := by omega
    have hfield : line d false = line spb false ++ (line (8 * spb) false ++ line (d - 9 * spb) false) := by
      rw [← line_add, ← line_add, hbits]
    rw [hline, hfield, dataWave_zero, List.append_assoc, List.append_assoc]

/-- The value is read off the data bits; the stop bit decides what is returned. -/
theorem byteRead_of_frameLine {c : Cursor} (f : FrameLine p S spb v c.pos g h value n b rest) :
    let start := c.pos + g + h
    let stop := start + half p spb + 9 * spb
    let c' : Cursor := ⟨stop, c.trace ++ readMarks p v spb value c.pos g start⟩
    byteRead p S spb v c =
      if b then .done (.byte { value, startPos := start, endPos := stop, ferr := decide (0 < g) }) (c'.mark .stopBit)
      else byteLowStop p S spb v value start (decide (0 < g)) c' := by
  intro start stop c'
  have hhalf := f.halfBit
  have hstop := f.stopBit
  have hlow : S[start + half p spb]? = some false := sample_of_line f.drop_start (by omega) (by omega)
  have hlevel : S[start + half p spb + 8 * spb + spb]? = some b := sample_of_line f.drop_stop (by omega) (by omega)
  obtain ⟨c1, hread⟩ := readBits_of_wave (value := 0x00)
    (c := (⟨start + half p spb, c.trace ++ resyncMarks c.pos g⟩ : Cursor).mark .startBit)
    hhalf (Nat.le_refl 8) f.drop_data (by simp only [Cursor.mark]; omega) nofun
  have hc1 := readBits_cursor hread (f := dataBit p v value) fun i hi => by
    have hdata := sample_of_dataWave hhalf f.drop_data hi
    rw [Nat.zero_add] at hdata
    rw [← hdata]
    congr 1
    simp only [Cursor.mark]
    ring
  have hc' : ({ c1 with pos := c1.pos + spb } : Cursor) = c' := by
    have hpos : start + half p spb + 8 * spb + spb = stop := by omega
    simp [hc1, c', Cursor.mark, readMarks, hpos, start]
  have hadvance : advance S spb c1 = .done () c' := by
    rw [← hc']
    exact advance_of_sample (b := b) (by rw [hc1]; exact hlevel)
  have hsample : level S c' = .done b c' := by
    rw [← hc']
    exact level_of_sample (by rw [hc1]; exact hlevel)
  rw [byteRead, byteStart_of_line f.high (by omega) f.samples, Wire.bind_done, advance_of_sample hlow, Wire.bind_done,
    hread, Wire.bind_done, hadvance, Wire.bind_done, hsample, Wire.bind_done]

end

/-! The low stop bit: conditions (a), (b) and (c) (41 R100). -/

section
variable {p : Config} {S : List Sample} {spb : Nat} {v : Version} {value : Byte} {start d u : Nat} {ferr : Bool}
  {c : Cursor}

/-- A data bit that is set, or a low run that is not past `X` more bit periods: a framing error at the stop bit. -/
theorem byteLowStop_of_short (hlow : LevelRun S false c.pos d) (h : ¬(value = 0x00 ∧ p.xExtra.get v * spb < d)) :
    byteLowStop p S spb v value start ferr c = framingError value start c := by
  rw [byteLowStop, hlow.samplesUntilNextEdge, Wire.bind_done, if_neg h]

/-- Past `X` more bit periods the high run after the low one, from `rise` on, decides. -/
theorem byteLowStop_of_long {rise : Nat} (hlow : LevelRun S false c.pos d)
    (h : value = 0x00 ∧ p.xExtra.get v * spb < d) (hrise : c.pos + d = rise) (hhigh : LevelRun S true rise u) :
    byteLowStop p S spb v value start ferr c =
      if half p spb < u then
        .done (.breakField
            { startPos := start, endPos := rise + half p spb, bits := rnd spb (rise - start), ferr })
          { c with pos := rise + half p spb }
      else framingError value start { c with pos := rise } := by
  subst hrise
  rw [byteLowStop, hlow.samplesUntilNextEdge, Wire.bind_done, if_pos h, hlow.advanceToNextEdge, Wire.bind_done]
  dsimp only
  rw [LevelRun.samplesUntilNextEdge hhigh, Wire.bind_done]
  split
  · rw [advance_of_sample (hhigh.level _ ‹_›)]
    rfl
  · rfl

/-- What a low stop bit leads to: a framing error at the stop-bit sample, or past `X` more bit periods one at the
rising edge, or a break field half a bit after it. -/
theorem byteLowStop_cases {r : ReadResult} {c' : Cursor} (hstop : S[c.pos]? = some false)
    (h : byteLowStop p S spb v value start ferr c = .done r c') :
    framingError value start c = .done r c' ∨
    ∃ d u, (value = 0x00 ∧ p.xExtra.get v * spb < d) ∧ LevelRun S false c.pos d ∧ LevelRun S true (c.pos + d) u ∧
      (framingError value start { c with pos := c.pos + d } = .done r c' ∨
        half p spb < u ∧ c'.pos = c.pos + d + half p spb ∧
          r = .breakField
            { startPos := start, endPos := c'.pos, bits := rnd spb (c.pos + d - start), ferr }) := by
  have hread := h
  obtain ⟨_, c1, huntil, h⟩ := Wire.bind_eq_done h
  obtain ⟨q, hq, rfl, rfl⟩ := samplesUntilNextEdge_eq_done huntil
  obtain ⟨d, rfl, hlow⟩ := LevelRun.of_nextEdge hstop hq
  by_cases hlong : value = 0x00 ∧ p.xExtra.get v * spb < d
  · rw [Nat.add_sub_cancel_left, if_pos hlong, hlow.advanceToNextEdge, Wire.bind_done] at h
    obtain ⟨_, c2, huntil, -⟩ := Wire.bind_eq_done h
    obtain ⟨e, he, -⟩ := samplesUntilNextEdge_eq_done huntil
    obtain ⟨u, -, hhigh⟩ := LevelRun.of_nextEdge hlow.edge he
    rw [byteLowStop_of_long hlow hlong rfl hhigh] at hread
    refine .inr ⟨d, u, hlong, hlow, hhigh, ?_⟩
    split at hread
    · cases hread
      exact .inr ⟨‹_›, rfl, rfl⟩
    · exact .inl hread
  · exact .inl (byteLowStop_of_short hlow hlong ▸ hread)

end

/-! BYTE_READ (41 R100 to R102). -/

theorem exec_byteRead_of_done {s : State} {v : Version} {r : ReadResult} {c : Cursor} (hv : s.protocol = some v)
    (hspb : 2 ≤ s.spb) (h : byteRead s.config s.samples s.spb v s.cursor = .done r c) :
    exec .byteRead s = .next ((s.atCursor c).returns (.read r)) := by
  have hexec : exec .byteRead s = execByteRead s := rfl
  rw [hexec, execByteRead, withTiming_of_legal hv hspb, h, onWire_done]

/-- Settles O43: the stop bit reads high. -/
theorem byteReadReadsFrame : Obligations.ByteReadReadsFrame := by
  intro s v g h value rest hv hhalf hspb hh hline start mid
  have hbit := half_lt hhalf hspb
  have hframe : FrameLine s.config s.samples s.spb v s.pos g h value s.spb true rest :=
    ⟨hbit, hh, hbit, by simpa [byteWave] using hline⟩
  rw [exec_byteRead_of_done hv hspb (byteRead_of_frameLine (c := s.cursor) hframe)]
  simp [State.returns, State.atCursor, State.cursor, Cursor.mark, readMarks, resyncMarks, start, mid]

/-- Settles O45: a data bit that is set makes the low stop bit a framing error, however long the line stays low. -/
theorem lowStopWithDataIsFramingError : Obligations.LowStopWithDataIsFramingError := by
  intro s v g h w value rest hv hhalf hspb hh hvalue hline start mid
  have hbit := half_lt hhalf hspb
  have hframe : FrameLine s.config s.samples s.spb v s.pos g h value (s.spb + w) false (line 1 true ++ rest) :=
    ⟨hbit, hh, by omega, by simpa [byteWave, line_add, line] using hline⟩
  have hlow := hframe.stop_run (Nat.le_refl 1)
  have hread : byteRead s.config s.samples s.spb v s.cursor = framingError value start _ :=
    (byteRead_of_frameLine (c := s.cursor) hframe).trans (byteLowStop_of_short hlow fun hlong => hvalue hlong.1)
  rw [exec_byteRead_of_done hv hspb hread]
  simp [State.returns, State.atCursor, State.cursor, Cursor.mark, readMarks, resyncMarks, start, mid]

/-- Settles O44: the low run reads as the data bits of 0x00 and a low stop bit, and what is left of it after the
stop-bit sample decides. -/
theorem longLowIsBreakFieldOrError : Obligations.LongLowIsBreakFieldOrError := by
  intro s v g h d u rest hv hhalf hspb hh hu hline halfBit limit start mid marks hlong
  have hframe : FrameLine s.config s.samples s.spb v s.pos g h 0x00 (d - 9 * s.spb) false
      (line u true ++ (line 1 false ++ rest)) :=
    .of_longLow (half_lt hhalf hspb) hh hlong (by simpa [line] using hline)
  have hmarks : readMarks s.config v s.spb 0x00 s.pos g start = marks := by
    simp only [readMarks, resyncMarks, dataBit_zero, bitMarker, marks, mid, halfBit, Nat.zero_mul, Nat.add_zero,
      List.append_assoc, List.cons_append, List.nil_append]
    rfl
  have hread : byteRead s.config s.samples s.spb v s.cursor =
      byteLowStop s.config s.samples s.spb v 0x00 start (decide (0 < g)) ⟨mid 9, marks⟩ := by
    rw [← hmarks]
    exact byteRead_of_frameLine (c := s.cursor) hframe
  have hlow : LevelRun s.samples false (mid 9) (d - 9 * s.spb - halfBit) := hframe.stop_run hu
  have hstop : mid 9 = start + halfBit + 9 * s.spb := rfl
  have hrise : mid 9 + (d - 9 * s.spb - halfBit) = start + d := by omega
  have hend : start + 9 * s.spb + (d - 9 * s.spb) = start + d := by omega
  have hhigh : LevelRun s.samples true (start + d) u := .of_lines (hend ▸ hframe.drop_end) hu (Nat.le_refl 1)
  have hlimit : limit = halfBit + 9 * s.spb + s.config.xExtra.get v * s.spb := by
    simp only [limit]
    ring
  refine ⟨fun hpast hfull => ?_, fun hpast hshort => ?_, fun hwithin => ?_⟩
  · have hbreak := hread.trans ((byteLowStop_of_long hlow ⟨rfl, by omega⟩ hrise hhigh).trans (if_pos hfull))
    rw [exec_byteRead_of_done hv hspb hbreak, Nat.add_sub_cancel_left]
    rfl
  · have herr := hread.trans
      ((byteLowStop_of_long hlow ⟨rfl, by omega⟩ hrise hhigh).trans (if_neg (Nat.not_lt.2 hshort)))
    rw [exec_byteRead_of_done hv hspb herr, List.append_assoc]
    rfl
  · have herr := hread.trans (byteLowStop_of_short hlow fun hpast => by omega)
    rw [exec_byteRead_of_done hv hspb herr, List.append_assoc]
    rfl

/-- What a read that returns has seen: a falling edge ahead of the cursor, and at the stop-bit sample a high level or
a low one. -/
theorem byteRead_cases {p : Config} {S : List Sample} {spb : Nat} {v : Version} {c c' : Cursor} {r : ReadResult}
    (h : byteRead p S spb v c = .done r c') :
    ∃ start value ferr c1, c.pos < start ∧ c1.pos = start + half p spb + 9 * spb ∧
      (S[c1.pos]? = some true ∧ r = .byte { value, startPos := start, endPos := c1.pos, ferr } ∧
          c' = c1.mark .stopBit ∨
        S[c1.pos]? = some false ∧ byteLowStop p S spb v value start ferr c1 = .done r c') := by
  obtain ⟨ferr, c1, hstart, h⟩ := Wire.bind_eq_done h
  obtain ⟨_, c2, hadvance, h⟩ := Wire.bind_eq_done h
  obtain ⟨rfl, -⟩ := advance_eq_done hadvance
  obtain ⟨value, c3, hdata, h⟩ := Wire.bind_eq_done h
  obtain ⟨_, c4, hstop, h⟩ := Wire.bind_eq_done h
  obtain ⟨rfl, -⟩ := advance_eq_done hstop
  obtain ⟨high, c5, hlevel, h⟩ := Wire.bind_eq_done h
  obtain ⟨rfl, hsample⟩ := level_eq_done hlevel
  have hpos : c3.pos + spb = c1.pos + half p spb + 9 * spb := by
    rw [readBits_pos hdata, Cursor.mark]
    ring
  refine ⟨c1.pos, value, ferr, { c3 with pos := c3.pos + spb }, byteStart_eq_done hstart, hpos, ?_⟩
  cases high with
  | true => cases h; exact .inl ⟨hsample, rfl, rfl⟩
  | false => exact .inr ⟨hsample, h⟩

/-- Settles O46: the runs that follow the stop-bit sample say where the cursor is left. -/
theorem byteReadLeavesCursor : Obligations.ByteReadLeavesCursor := by
  intro p S spb v c c' r hhalf hspb h
  obtain ⟨start, value, ferr, c1, hahead, hpos, ⟨hhigh, rfl, rfl⟩ | ⟨hlow, h⟩⟩ := byteRead_cases h
  · exact ⟨hahead, rfl, .inl ⟨hpos, hhigh⟩⟩
  rcases byteLowStop_cases hlow h with
    herr | ⟨d, u, ⟨hzero, hlong⟩, hrun, hrise, herr | ⟨hfull, hend, rfl⟩⟩
  · cases herr
    exact ⟨hahead, rfl, .inr (.inl ⟨hpos, hlow, rfl⟩)⟩
  · cases herr
    dsimp only
    rw [← hpos]
    refine ⟨hahead, rfl, .inr (.inr ⟨Nat.add_lt_add_left hlong _, hzero, rfl, hrise.first, fun q hq hqe => ?_⟩)⟩
    obtain ⟨i, rfl⟩ := Nat.exists_eq_add_of_le hq
    exact hrun.level i (by omega)
  · have hextra : (9 + p.xExtra.get v) * spb = 9 * spb + p.xExtra.get v * spb := Nat.add_mul ..
    have hpast : half p spb + (9 + p.xExtra.get v) * spb < c1.pos + d - start := by omega
    have hbits := le_rnd_of_past_half hhalf (by omega) hpast
    have hlast := hrun.level (d - 1) (by omega)
    rw [← Nat.add_sub_assoc hrun.lasts] at hlast
    dsimp only
    refine ⟨hahead, rfl, c1.pos + d, hend, rfl, by omega, by omega, hlast, fun q hq hqe => ?_⟩
    obtain ⟨i, rfl⟩ := Nat.exists_eq_add_of_le hq
    exact hrise.level i (by omega)

end Sys2Proof.Machine
end

section
/-! PROOFS, family 42_frame_fsm.md: the state steps. -/

namespace Sys2Proof.Machine

/-! The CRC registers after one absorbed byte, in both arms (44 R152). -/

/-- `CRC_ABSORB` as one record update. -/
theorem State.absorb_eq (s : State) (v : Version) (b : Byte) :
    s.absorb v b =
      { s with
        crc := if s.config.crcPairs.get v then
            (if s.crcPar then crcAdd s.config (crcAdd s.config s.crc b) s.crcHold else s.crc)
          else crcAdd s.config s.crc b
        crcPar := if s.config.crcPairs.get v then !s.crcPar else s.crcPar
        crcHold := if s.config.crcPairs.get v ∧ s.crcPar = false then b else s.crcHold } := by
  cases hpairs : s.config.crcPairs.get v with
  | false => rw [State.absorb_of_no_pairs hpairs]; rfl
  | true =>
    rw [State.absorb_of_pairs hpairs]
    cases hpar : s.crcPar <;> simp [State.absorbPair, hpar]

/-! Where the header and the data bytes lead (42 R114, R116, R117). -/

theorem instructionBit_iff {p : Config} {v : Version} {id2 : Byte} :
    instructionBit p v id2 = true ↔ v = .v2 ∧ id2.getLsbD p.v2InstrBit = true := by
  cases v with
  | v1 | v1Extended => exact ⟨nofun, nofun⟩
  | v2 => exact (and_iff_right rfl).symm

theorem afterHeader_eq_ite (b : BitVec 8) : afterHeader b = if 0 < b.toNat then .dataByte else .crcByte1 := by
  rcases afterHeader_cases b with ⟨hb, h⟩ | ⟨hb, h⟩ <;> rw [h]
  · rw [hb]; rfl
  · have hpos : 0 < b.toNat := by bv_omega
    rw [if_pos hpos]

/-- The decremented count, as a number (42 R117). -/
theorem pred_eq_ofNat {x : BitVec 8} (h : 1 ≤ x.toNat) : x - 1 = BitVec.ofNat 8 (x.toNat - 1) := by
  bv_omega

/-- The index of a data byte, from the decremented count (42 R117, R122). -/
theorem sequenceIndex_eq_ofNat {body left : BitVec 8} (h : 1 ≤ left.toNat) (hle : left.toNat ≤ body.toNat) :
    body - (left - 1) = BitVec.ofNat 8 (body.toNat - (left.toNat - 1)) := by
  bv_omega

theorem acceptedValue_eq (s : State) (v : Version) :
    acceptedValue s v = if v = .v2 then s.ackValue else s.config.ackFixed := by
  cases v <;> rfl

/-! The states that consume a break (42 R111, R112). -/

theorem breakFlags_of_zero {u : BreakRec} (h : u.value = 0x00) :
    breakFlags u = { Flags.empty with framingError := u.ferr, unexpectedToggling := u.toggling } := by
  rw [breakFlags, h]; rfl

theorem breakFlags_of_ne {u : BreakRec} (h : u.value ≠ 0x00) :
    breakFlags u =
      { Flags.empty with framingError := u.ferr, headerBreakExpected := true, unexpectedToggling := u.toggling } := by
  rw [breakFlags, bne_iff_ne.2 h]

theorem exec_stNoframe (u : BreakRec) (s : State) : exec (.stNoframe u) s = .next (s.acceptBreak u) := rfl

/-- Settles O10: the two branches of `State.acceptBreak`, which both states perform. -/
theorem breakStepsBothBranches : Obligations.BreakStepsBothBranches := by
  refine fun u s => ⟨fun h => ?_, fun h => ?_, rfl⟩
  · rw [exec_stNoframe, acceptBreak_eq s h, breakUnit, breakFlags_of_zero h, h]
    simp [State.emit, State.crcReset, State.emitUnit, State.goto, Flags.empty]
  · rw [exec_stNoframe, State.acceptBreak, if_neg h, breakUnit, breakFlags_of_ne h]
    simp [State.emit, State.emitUnit, State.goto, Flags.empty]

/-! The states that consume a byte (42 R113 to R120). -/

/-- Settles O11: the byte is stored, then absorbed. -/
theorem headerIdOneStored : Obligations.HeaderIdOneStored := by
  intro r s v hv
  refine (withVersion_of_protocol hv _).trans ?_
  rw [State.absorb_eq]
  rfl

/-- Settles O12: `len` fits the register, so the branch on the register is the branch on the length. -/
theorem headerIdTwoSetsLength : Obligations.HeaderIdTwoSetsLength := by
  intro r s v hv
  refine (withVersion_of_protocol hv _).trans ?_
  simp only [State.absorb_eq, instructionBit_iff, afterHeader_eq_ite, bodyLen_toNat]
  rfl

/-- Settles O13: the branch reads no operand. -/
theorem instrBitLeadsToInstruction : Obligations.InstrBitLeadsToInstruction := fun _ _ _ => rfl

/-- Settles O14: both bytes are absorbed; the second is followed by the branch on the body length. -/
theorem instructionBytesAbsorbed : Obligations.InstructionBytesAbsorbed := by
  intro r s v hv
  refine ⟨(withVersion_of_protocol hv _).trans ?_, (withVersion_of_protocol hv _).trans ?_⟩
  · rw [State.absorb_eq]
    rfl
  · rw [State.absorb_eq, afterHeader_eq_ite]
    rfl

/-- Settles O15: where a byte remains, the subtractions of the registers are those of the numbers. -/
theorem dataByteCountsDown : Obligations.DataByteCountsDown := by
  intro r s v hv hleft hcount
  have hlast : s.remaining = 1 ↔ s.remaining.toNat = 1 := BitVec.toNat_inj.symm
  refine (withVersion_of_protocol hv _).trans ?_
  simp only [State.absorb_eq, hlast, sequenceIndex_eq_ofNat hleft hcount]
  rw [pred_eq_ofNat hleft]
  rfl

/-- Settles O16: the record update of ST.CRC1, with the CRC registers left out. -/
theorem crcByteOneLatched : Obligations.CrcByteOneLatched := fun _ _ => rfl

/-- Settles O17: the unit is the same in both cases; what follows is the ACK policy's decision. -/
theorem crcByteTwoChecksAndDecides : Obligations.CrcByteTwoChecksAndDecides := by
  intro r s v hv
  refine ⟨fun hack => (withVersion_of_protocol hv _).trans ?_, fun hack => (withVersion_of_protocol hv _).trans ?_⟩
  · simp only [hack, if_true, acceptedValue_eq]
    rfl
  · simp only [hack, Bool.false_eq_true, if_false, State.emit, State.goto_sink, State.emitUnit_sink,
      List.append_assoc, List.singleton_append]
    rfl

theorem exec_stAck (r : ByteRec) (s : State) :
    exec (.stAck r) s =
      .next (((s.emitUnit (unitOf .ackByte r (ackFlags r s.ackAccept))).goto .noFrame).emit .commit) := rfl

/-- Settles O18: the unit, then the commit in `NoFrame`. -/
theorem ackByteComparedAndCommitted : Obligations.AckByteComparedAndCommitted := by
  intro r s
  rw [exec_stAck, State.emit, State.goto_sink, State.emitUnit_sink, List.append_assoc]
  rfl

/-- Settles O19: `State.enterMissingByte` written out. -/
theorem missingByteAbortsPacket : Obligations.MissingByteAbortsPacket := fun _ _ => rfl

end Sys2Proof.Machine
end

section
/-! PROOFS, family 42_frame_fsm.md: the session operations, ITER and the transition table. -/

namespace Sys2Proof.Machine

/-! Session control (42 R127 to R129). -/

theorem execSessionStart_of_illegal {s : State} (h : s.legalConfig = false) : execSessionStart s = .next s := by
  unfold execSessionStart
  split
  · rw [h, if_neg Bool.false_ne_true]
  · rfl
  · rfl

theorem execSessionStart_of_not_idle {s : State} (h : s.mode ≠ .idle) : execSessionStart s = .next s := by
  unfold execSessionStart
  split
  · exact absurd ‹_› h
  · rfl
  · rfl

theorem legalConfig_eq_false {s : State} (h : s.protocol = none ∨ s.spb < 2) : s.legalConfig = false := by
  rcases h with h | h <;> simp [State.legalConfig, h]

/-- Settles O3: in IDLE the configuration decides; outside it nothing happens. -/
theorem startBeginsSession : Obligations.StartBeginsSession := fun _ =>
  ⟨execSessionStart_of_legal, fun _ hl => execSessionStart_of_illegal (legalConfig_eq_false hl),
    execSessionStart_of_not_idle⟩

theorem execIter_of_not_run {s : State} (h : s.mode ≠ .run) : execIter s = .next s := by
  unfold execIter
  split
  · rfl
  · rfl
  · exact absurd ‹_› h

/-- The poll of a step that no wire operation waits in (42 R110). -/
theorem execIter_of_cancel {s : State} (hm : s.mode = .run) (hc : s.cancel = true) (hw : s.waiting = false) :
    execIter s = execSessionCancel s := by
  simp [execIter, hm, hc, hw]

/-- Settles O4: SESSION.CANCEL alone, as ITER's poll performs it, and ITER after DONE. -/
theorem cancelEndsSession : Obligations.CancelEndsSession :=
  ⟨fun _ => rfl, fun _ => execIter_of_cancel, fun s hm => execIter_of_not_run (by simp [hm])⟩

/-- Settles O5: `State.terminate` written out. -/
theorem exhaustWritesStatus : Obligations.ExhaustWritesStatus := fun _ => rfl

/-! The unit step by the kind of state (42 R110, 30 R70). -/

/-- The two states that consume a break do the same with it (42 R112). -/
theorem unitStep_of_breakState {s : State} (hs : s.state = .noFrame ∨ s.state = .headerBreak) :
    unitStep s = s.withBreak fun u => exec (.stNoframe u) := by
  rcases hs with hs | hs <;> rw [unitStep, hs] <;> rfl

theorem withBreak_of_pending {s : State} (hp : s.pendingBreak = true) (k : BreakRec → State → Outcome) :
    s.withBreak k = k s.pendingRec s.clearPending := by
  rw [State.withBreak, if_pos hp]

/-- ITER on a pending break is ST.NOFRAME on the latched record (42 R110, 60 R182). -/
theorem execIter_of_pending {s : State} (hm : s.mode = .run) (hc : s.cancel = false ∨ s.waiting = true)
    (hs : s.state = .noFrame ∨ s.state = .headerBreak) (hp : s.pendingBreak = true) :
    execIter s = exec (.stNoframe s.pendingRec) s.clearPending := by
  rw [execIter_of_run hm hc, unitStep_of_breakState hs, withBreak_of_pending hp]

/-- Settles O7: the pending break goes through the accepting branch of ST.NOFRAME. -/
theorem iterConsumesPendingBreak : Obligations.IterConsumesPendingBreak := by
  refine ⟨fun s => execIter_of_not_run, fun s hm hc hs hp => ?_⟩
  obtain ⟨haccept, -, -⟩ := breakStepsBothBranches s.pendingRec s.clearPending
  exact (execIter_of_pending hm hc hs hp).trans (haccept rfl)

/-- Settles O20: MISSING_BYTE leaves the break pending in `NoFrame`, where ITER consumes it. -/
theorem missingByteRestartsHeader : Obligations.MissingByteRestartsHeader := by
  intro r s hm hc
  have hmissing : exec (.missingByte r) s = .next (s.enterMissingByte r) := rfl
  have hiter := iterConsumesPendingBreak.2 (s.enterMissingByte r) hm (.inl hc) (.inl rfl) rfl
  simp only [execAll, hmissing, hiter, State.enterMissingByte_sink, List.append_assoc, List.cons_append,
    List.nil_append]
  rfl

/-- Settles O9: `step` looks at the queue, and an action that is no operation is a host action. -/
theorem stepTakesOldestAction : Obligations.StepTakesOldestAction := by
  intro s rest
  refine ⟨fun h => by rw [step, h], fun h => by rw [step, h]; rfl, fun h => by rw [step, h]; rfl,
    fun r h hturn hstart => ?_⟩
  have hnone : r.operation = none := by
    cases r with
    | turn => exact absurd rfl hturn
    | start => exact absurd rfl hstart
    | _ => rfl
  rw [step, h]
  simp only [hnone]

/-! The unit that the wire side delivers, and the operation it selects (42 R110). -/

/-- How the wire side delivers a unit: a break is pending, a break is scanned, or a byte state reads. -/
inductive Delivered (s : State) : WireUnit → State → Prop
  | pending (hs : s.state = .noFrame ∨ s.state = .headerBreak) (hp : s.pendingBreak = true) :
      Delivered s (.brk s.pendingRec) s.clearPending
  | scanned (hs : s.state = .noFrame ∨ s.state = .headerBreak) (hp : s.pendingBreak = false) (v : Version)
      (hv : s.protocol = some v) (hspb : 2 ≤ s.spb) (b : BreakRec) (c : Cursor)
      (hw : brkScan s.config s.samples s.spb v s.cursor = .done b c) : Delivered s (.brk b) (s.atCursor c)
  | byte (hs : s.state ≠ .noFrame ∧ s.state ≠ .headerBreak) (v : Version) (hv : s.protocol = some v)
      (hspb : 2 ≤ s.spb) (r : ByteRec) (c : Cursor)
      (hw : byteRead s.config s.samples s.spb v s.cursor = .done (.byte r) c) : Delivered s (.byte r) (s.atCursor c)
  | breakField (hs : s.state ≠ .noFrame ∧ s.state ≠ .headerBreak) (v : Version) (hv : s.protocol = some v)
      (hspb : 2 ≤ s.spb) (f : BreakFieldRec) (c : Cursor)
      (hw : byteRead s.config s.samples s.spb v s.cursor = .done (.breakField f) c) :
      Delivered s (.breakField f) (s.atCursor c)

/-- A wire operation hands on a unit only under a legal configuration and when it completes. -/
theorem wireDone_eq_some {α : Type} {s t : State} {w : Nat → Version → Cursor → Wire α} {f : α → WireUnit}
    {u : WireUnit} (h : s.wireDone w f = some (u, t)) :
    ∃ v a c, s.protocol = some v ∧ 2 ≤ s.spb ∧ w s.spb v s.cursor = .done a c ∧ u = f a ∧ t = s.atCursor c := by
  unfold State.wireDone at h
  split at h
  · cases h
  · split at h
    · split at h
      · cases h
        exact ⟨_, _, _, ‹_›, ‹_›, ‹_›, rfl, rfl⟩
      · cases h
    · cases h

theorem delivered_of_wireUnit {s t : State} {u : WireUnit} (h : wireUnit s = some (u, t)) : Delivered s u t := by
  unfold wireUnit at h
  cases hs : s.state <;> rw [hs] at h
  case noFrame | headerBreak =>
    have hbreak : s.state = .noFrame ∨ s.state = .headerBreak := by simp [hs]
    dsimp only at h
    split at h
    · cases h
      exact .pending hbreak ‹_›
    · rename_i hp
      obtain ⟨v, b, c, hv, hspb, hw, rfl, rfl⟩ := wireDone_eq_some h
      exact .scanned hbreak (eq_false_of_ne_true hp) v hv hspb b c hw
  case headerId1 | headerId2 | instructionByte1 | instructionByte2 | dataByte | crcByte1 | crcByte2 | ackByte =>
    obtain ⟨v, r, c, hv, hspb, hw, rfl, rfl⟩ := wireDone_eq_some h
    have hbyte : s.state ≠ .noFrame ∧ s.state ≠ .headerBreak := by simp [hs]
    cases r with
    | byte r => exact .byte hbyte v hv hspb r c hw
    | breakField f => exact .breakField hbyte v hv hspb f c hw

/-- A byte state runs the operation that its code decodes to, on a byte; a break field is MISSING_BYTE. -/
theorem unitStep_of_byteState {s : State} (hs : s.state ≠ .noFrame ∧ s.state ≠ .headerBreak) :
    ∃ k : ByteRec → Instr, (∀ r, decodeUnit s.state (.byte r) = .ok (k r)) ∧
      (∀ f, decodeUnit s.state (.breakField f) = .ok (.missingByte f)) ∧
      unitStep s = s.withByte fun r => exec (k r) := by
  obtain ⟨hframe, hbreak⟩ := hs
  unfold unitStep
  cases hst : s.state with
  | noFrame => exact absurd hst hframe
  | headerBreak => exact absurd hst hbreak
  | headerId1 => exact ⟨.stHeaderid1, fun _ => rfl, fun _ => rfl, rfl⟩
  | headerId2 => exact ⟨.stHeaderid2, fun _ => rfl, fun _ => rfl, rfl⟩
  | instructionByte1 => exact ⟨.stInstr1, fun _ => rfl, fun _ => rfl, rfl⟩
  | instructionByte2 => exact ⟨.stInstr2, fun _ => rfl, fun _ => rfl, rfl⟩
  | dataByte => exact ⟨.stData, fun _ => rfl, fun _ => rfl, rfl⟩
  | crcByte1 => exact ⟨.stCrc1, fun _ => rfl, fun _ => rfl, rfl⟩
  | crcByte2 => exact ⟨.stCrc2, fun _ => rfl, fun _ => rfl, rfl⟩
  | ackByte => exact ⟨.stAck, fun _ => rfl, fun _ => rfl, rfl⟩

/-- A break decodes to ST.NOFRAME in `NoFrame` and to the same step under another name in `HeaderBreak`. -/
theorem decodeUnit_brk {st : FrameState} (hs : st = .noFrame ∨ st = .headerBreak) (b : BreakRec) :
    ∃ i, decodeUnit st (.brk b) = .ok i ∧ exec i = exec (.stNoframe b) := by
  rcases hs with rfl | rfl
  · exact ⟨.stNoframe b, rfl, rfl⟩
  · exact ⟨.stHeaderbreak b, rfl, rfl⟩

/-- The unit step performs the operation that the state and the delivered unit decode to. -/
theorem Delivered.unitStep {s t : State} {u : WireUnit} (h : Delivered s u t) :
    ∃ i, decodeUnit s.state u = .ok i ∧ unitStep s = exec i t := by
  cases h with
  | pending hs hp =>
    obtain ⟨i, hdecode, hexec⟩ := decodeUnit_brk hs s.pendingRec
    exact ⟨i, hdecode, by rw [hexec, unitStep_of_breakState hs, withBreak_of_pending hp]⟩
  | scanned hs hp v hv hspb b c hw =>
    obtain ⟨i, hdecode, hexec⟩ := decodeUnit_brk hs b
    refine ⟨i, hdecode, ?_⟩
    rw [hexec, unitStep_of_breakState hs, State.withBreak, hp, if_neg Bool.false_ne_true,
      withTiming_of_legal hv hspb, hw, onWire_done]
  | byte hs v hv hspb r c hw =>
    obtain ⟨k, hdecode, -, hstep⟩ := unitStep_of_byteState hs
    refine ⟨k r, hdecode r, ?_⟩
    rw [hstep, State.withByte, withTiming_of_legal hv hspb, hw, onWire_done]
    rfl
  | breakField hs v hv hspb f c hw =>
    obtain ⟨k, -, hdecode, hstep⟩ := unitStep_of_byteState hs
    refine ⟨.missingByte f, hdecode f, ?_⟩
    rw [hstep, State.withByte, withTiming_of_legal hv hspb, hw, onWire_done]
    rfl

/-- A wire operation from the cursor of a state makes markers only. -/
theorem decodeCalls_trace {s : State} {c : Cursor} (hc : s.cursor.Forward c) : decodeCalls c.trace = [] := by
  obtain ⟨-, m, htrace, hm⟩ := hc
  have hmade : c.trace = m := htrace
  exact hmade ▸ decodeCalls_of_markers hm

/-- What the wire side changes before the operation runs. -/
theorem Delivered.frame {s t : State} {u : WireUnit} (h : Delivered s u t) :
    ∃ calls, decodeCalls calls = [] ∧
      t = { s with
            pos := t.pos, sink := s.sink ++ calls, pendingBreak := t.pendingBreak, waiting := t.waiting } := by
  cases h with
  | pending hs hp =>
    refine ⟨[], rfl, ?_⟩
    rw [List.append_nil]
    rfl
  | scanned _ _ _ _ _ _ c hw => exact ⟨c.trace, decodeCalls_trace ((brkScan_forward _ _ _ _ _).of_done hw), rfl⟩
  | byte _ _ _ _ _ c hw | breakField _ _ _ _ _ c hw =>
    exact ⟨c.trace, decodeCalls_trace ((byteRead_forward _ _ _ _ _).of_done hw), rfl⟩

/-- Settles O8: the unit delivered is one that the state's code decodes, and the unit step is what it decodes to. -/
theorem stepRunsDecodedUnit : Obligations.StepRunsDecodedUnit := by
  intro s t u ⟨hm, hc, hinbox⟩ hw
  have hd := delivered_of_wireUnit hw
  obtain ⟨i, hdecode, hunit⟩ := hd.unitStep
  refine ⟨⟨i, ?_, ?_⟩, hd.frame⟩
  · rw [decode, decodeState, FrameState.ofCode_code]
    exact hdecode
  · calc step s = execIter s := (stepTakesOldestAction s []).1 hinbox
      _ = Machine.unitStep s := execIter_of_run hm hc
      _ = exec i t := hunit

/-! The transition table (42 R130). -/

theorem acceptBreak_of_decodeUnit {st : FrameState} {t t' : State} {b : BreakRec} {i : Instr}
    (hs : st = .noFrame ∨ st = .headerBreak) (hd : decodeUnit st (.brk b) = .ok i) (h : exec i t = .next t') :
    t' = t.acceptBreak b := by
  obtain ⟨j, hj, hexec⟩ := decodeUnit_brk hs b
  cases hd.symm.trans hj
  rw [hexec] at h
  cases h
  rfl

/-- A delivered break has the value 0x00 (40 R91) and is no longer pending; it decodes to the break step only. -/
theorem Delivered.acceptBreak {s t t' : State} {b : BreakRec} {i : Instr} (h : Delivered s (.brk b) t)
    (hd : decodeUnit s.state (.brk b) = .ok i) (hstep : exec i t = .next t') :
    b.value = 0x00 ∧ t.pendingBreak = false ∧ t' = t.acceptBreak b := by
  cases h with
  | pending hs => exact ⟨rfl, rfl, acceptBreak_of_decodeUnit hs hd hstep⟩
  | scanned hs hp _ _ _ _ _ hw => exact ⟨(brkScan_eq_done hw).1, hp, acceptBreak_of_decodeUnit hs hd hstep⟩

/-- A break field decodes to MISSING_BYTE only. -/
theorem Delivered.missingByte {s t t' : State} {f : BreakFieldRec} {i : Instr} (h : Delivered s (.breakField f) t)
    (hd : decodeUnit s.state (.breakField f) = .ok i) (hstep : exec i t = .next t') : t' = t.enterMissingByte f := by
  cases h with | breakField hs =>
  obtain ⟨-, -, hdecode, -⟩ := unitStep_of_byteState hs
  cases hd.symm.trans (hdecode f)
  cases hstep
  rfl

/-- The operation that a byte decodes to is the state step of the state. -/
theorem ByteStep.of_decodeUnit {r : ByteRec} {s t : State} {i : Instr} (hd : decodeUnit s.state (.byte r) = .ok i)
    (h : exec i s = .next t) : ByteStep r s t := by
  cases hs : s.state <;> rw [hs] at hd <;> cases hd
  case headerId1 => exact .headerId1 hs h
  case headerId2 => exact .headerId2 hs h
  case instructionByte1 => exact .instr1 hs h
  case instructionByte2 => exact .instr2 hs h
  case dataByte => exact .data hs h
  case crcByte1 => exact .crc1 hs h
  case crcByte2 => exact .crc2 hs h
  case ackByte => exact .ack hs h

theorem acceptBreak_pendingBreak (s : State) (u : BreakRec) : (s.acceptBreak u).pendingBreak = s.pendingBreak := by
  unfold State.acceptBreak
  split <;> rfl

/-- The rows of the table for a byte: the next state, and the calls for the unit `f` of the byte. -/
inductive ByteRow (v : Version) (r : ByteRec) (s t : State) (f : FrameUnit) : List SinkCall → Prop
  | headerId1 (hs : s.state = .headerId1) (ht : t.state = .headerId2) : ByteRow v r s t f [.emitFrame f]
  | headerId2 (hs : s.state = .headerId2)
      (ht : t.state = if s.protocol = some .v2 ∧ r.value.getLsbD s.config.v2InstrBit = true then .instructionByte1
        else afterHeader t.bodyLen) : ByteRow v r s t f [.emitFrame f]
  | instr1 (hs : s.state = .instructionByte1) (ht : t.state = .instructionByte2) : ByteRow v r s t f [.emitFrame f]
  | instr2 (hs : s.state = .instructionByte2) (ht : t.state = afterHeader s.bodyLen) : ByteRow v r s t f [.emitFrame f]
  | data (hs : s.state = .dataByte) (ht : t.state = if s.remaining = 1 then .crcByte1 else .dataByte) :
      ByteRow v r s t f [.emitFrame f]
  | crc1 (hs : s.state = .crcByte1) (ht : t.state = .crcByte2) : ByteRow v r s t f [.emitFrame f]
  | crc2Ack (hs : s.state = .crcByte2) (hack : expectAck s v s.id1 s.id2 = true) (ht : t.state = .ackByte) :
      ByteRow v r s t f [.emitFrame f]
  | crc2NoAck (hs : s.state = .crcByte2) (hack : expectAck s v s.id1 s.id2 = false) (ht : t.state = .noFrame) :
      ByteRow v r s t f [.emitFrame f, .commit]
  | ack (hs : s.state = .ackByte) (ht : t.state = .noFrame) : ByteRow v r s t f [.emitFrame f, .commit]

/-- The step of a byte state emits a unit of the state and the byte, and takes the row of the table. -/
theorem ByteStep.row {v : Version} {r : ByteRec} {s t : State} (h : ByteStep r s t) (hv : s.protocol = some v) :
    ∃ f calls, f.state = s.state ∧ f.rawValue = r.value ∧ t.sink = s.sink ++ calls ∧ ByteRow v r s t f calls := by
  cases h with
  | headerId1 hs h =>
    cases h.symm.trans (withVersion_of_protocol hv _)
    exact ⟨unitOf .headerId1 r (byteFlags r), _, hs.symm, rfl, by simp, .headerId1 hs rfl⟩
  | headerId2 hs h =>
    cases h.symm.trans (withVersion_of_protocol hv _)
    exact ⟨unitOf .headerId2 r (byteFlags r), _, hs.symm, rfl, by simp,
      .headerId2 hs (by simp [instructionBit_iff, hv])⟩
  | instr1 hs h =>
    cases h.symm.trans (withVersion_of_protocol hv _)
    exact ⟨unitOf .instructionByte1 r (byteFlags r), _, hs.symm, rfl, by simp, .instr1 hs rfl⟩
  | instr2 hs h =>
    cases h.symm.trans (withVersion_of_protocol hv _)
    exact ⟨unitOf .instructionByte2 r (byteFlags r), _, hs.symm, rfl, by simp, .instr2 hs rfl⟩
  | data hs h =>
    cases h.symm.trans (withVersion_of_protocol hv _)
    exact ⟨{ unitOf .dataByte r (byteFlags r) with sequenceIndex := s.bodyLen - (s.remaining - 1) }, _, hs.symm, rfl,
      by simp, .data hs rfl⟩
  | crc1 hs h =>
    cases h
    exact ⟨unitOf .crcByte1 r (byteFlags r), _, hs.symm, rfl, rfl, .crc1 hs rfl⟩
  | crc2 hs h =>
    obtain ⟨hexpected, hnot⟩ := crcByteTwoChecksAndDecides r s v hv
    cases hack : expectAck s v s.id1 s.id2 with
    | true =>
      cases h.symm.trans (hexpected hack)
      exact ⟨_, _, hs.symm, rfl, rfl, .crc2Ack hs hack rfl⟩
    | false =>
      cases h.symm.trans (hnot hack)
      exact ⟨_, _, hs.symm, rfl, rfl, .crc2NoAck hs hack rfl⟩
  | ack hs h =>
    cases h
    exact ⟨unitOf .ackByte r (ackFlags r s.ackAccept), _, hs.symm, rfl, by simp, .ack hs rfl⟩

/-- Settles O49: the row of a break and of a break field is read off the step that it decodes to, and that of a byte
is `ByteStep.row`. -/
theorem transitionTable : Obligations.TransitionTable := by
  intro s t s' u hm hc hw h
  have hd := delivered_of_wireUnit hw
  obtain ⟨marks, hmarks, hframe⟩ := hd.frame
  have hsink : s'.sink = s.sink ++ marks := congrArg State.sink hframe
  have hmode : s'.mode = .run := (congrArg State.mode hframe).trans hm
  obtain ⟨i, hdecode, hunit⟩ := hd.unitStep
  have hstep : exec i s' = .next t := hunit.symm.trans ((execIter_of_run hm hc).symm.trans h)
  cases u with
  | brk b =>
    obtain ⟨hvalue, hpend, rfl⟩ := hd.acceptBreak hdecode hstep
    obtain ⟨hcalls, hstate, hrun⟩ := acceptBreak_of_zero s' hvalue
    exact ⟨marks, _, hmarks, by rw [hcalls, hsink], hrun.trans hmode, hstate,
      (acceptBreak_pendingBreak s' b).trans hpend, breakUnit b, rfl, rfl⟩
  | breakField f =>
    obtain rfl := hd.missingByte hdecode hstep
    exact ⟨marks, _, hmarks, by rw [State.enterMissingByte_sink, hsink], hmode, rfl, rfl, s'.lastEnd, f.startPos, rfl⟩
  | byte r =>
    cases hd with | byte _ v hv _ _ c _ =>
    have hbyte : ByteStep r (s.atCursor c) t := .of_decodeUnit hdecode hstep
    obtain ⟨hrun, hpend, -, -⟩ := hbyte.registers
    obtain ⟨f, calls, hf, hvalue, hcalls, hrow⟩ := hbyte.row hv
    refine ⟨marks, calls, hmarks, by rw [hcalls, hsink], hrun.trans hmode, hpend, f, hf, hvalue, ?_⟩
    cases hrow with
    | headerId1 hs ht | headerId2 hs ht | instr1 hs ht | instr2 hs ht | data hs ht | crc1 hs ht | ack hs ht =>
      rw [show s.state = _ from hs]
      exact ⟨ht, rfl⟩
    | crc2Ack hs hack ht | crc2NoAck hs hack ht =>
      rw [show s.state = _ from hs]
      intro w hw
      cases hv.symm.trans hw
      rw [show expectAck s v s.id1 s.id2 = _ from hack]
      exact ⟨ht, rfl⟩

end Sys2Proof.Machine
end

section
/-! PROOFS, family 43_length_decoder.md: the rows of the length decoder, LEN against them, and its ranges. -/

namespace Sys2Proof.Machine

/-! The V1 and V1Extended fields, by the bits of id2 (43 R142, R143). -/

theorem popcount_field3 (p : Config) (id2 : Byte) :
    popcount (field3 p id2) = (id2.getLsbD (p.v1F3Lsb + 2)).toNat + (id2.getLsbD (p.v1F3Lsb + 1)).toNat +
      (id2.getLsbD p.v1F3Lsb).toNat := by
  simp only [popcount, popcount.go, field3, BitVec.getLsbD_extractLsb', Nat.reduceLT, decide_true, Bool.true_and,
    Nat.add_zero]
  omega

theorem popcount_field6 (p : Config) (id2 : Byte) :
    popcount (field6 p id2) = (id2.getLsbD (p.v1F6Lsb + 5)).toNat + (id2.getLsbD (p.v1F6Lsb + 4)).toNat +
      (id2.getLsbD (p.v1F6Lsb + 3)).toNat + (id2.getLsbD (p.v1F6Lsb + 2)).toNat +
      (id2.getLsbD (p.v1F6Lsb + 1)).toNat + (id2.getLsbD p.v1F6Lsb).toNat := by
  simp only [popcount, popcount.go, field6, BitVec.getLsbD_extractLsb', Nat.reduceLT, decide_true, Bool.true_and,
    Nat.add_zero]
  omega

/-- Without its low two bits the 6-bit field is the four bits of id2 above them. -/
theorem lenV1XF1_field6 (p : Config) (id2 : Byte) :
    lenV1XF1 (field6 p id2) = (id2.toNat / 2 ^ (p.v1F6Lsb + 2) % 16 + 1) * 2 := by
  have hfield : (field6 p id2).toNat = id2.toNat / 2 ^ p.v1F6Lsb % 64 := by
    rw [field6, BitVec.extractLsb'_toNat, Nat.shiftRight_eq_div_pow]
  rw [lenV1XF1, BitVec.toNat_ushiftRight, Nat.shiftRight_eq_div_pow, hfield, pow_add, ← Nat.div_div_eq_div_mul]
  omega

/-! The rows (43 R141 to R143). -/

/-- Settles O21: no V2 row reads the header or the state. -/
theorem lengthRowsV2 : Obligations.LengthRowsV2 := fun _ _ _ _ =>
  ⟨rfl, rfl, rfl, rfl, rfl, rfl, rfl, rfl, rfl, rfl, rfl, rfl, rfl, rfl, rfl, rfl⟩

/-- Settles O22: the rows return the field lengths, which the field lemmas read off the bits of id2. -/
theorem lengthRowsV1 : Obligations.LengthRowsV1 := by
  intro id1 id2 s
  dsimp only
  rw [← popcount_field3, ← popcount_field6, ← lenV1XF1_field6]
  exact ⟨rfl, rfl, rfl, rfl⟩

/-- The row of a header's own function-select and length code returns the length that LEN computes from them. -/
theorem exec_rowV2 {p : Config} {f : Bool} {c : BitVec 3} {id1 id2 : Byte} (hf : functionSelect p .v2 id1 id2 = f)
    (hc : lengthCode p id2 = c) (w : BitVec 2) (s : State) :
    exec (rowV2 f c w id1 id2) s = .next (s.returns (.length (len p .v2 id1 id2))) := by
  have hf0 : functionSelect p .v2 0 id2 = f := hf
  have hcodes : ∀ c : BitVec 3, c = 0 ∨ c = 1 ∨ c = 2 ∨ c = 3 ∨ c = 4 ∨ c = 5 ∨ c = 6 ∨ c = 7 := by decide
  simp only [len, lenV2, hf0, hc]
  cases f <;> rcases hcodes c with rfl | rfl | rfl | rfl | rfl | rfl | rfl | rfl <;> rfl

/-! LEN (43 R140). -/

theorem len_of_select_clear {p : Config} {id1 : Byte} (h : id1.getLsbD p.v1FselBit = false) (id2 : Byte) :
    len p .v1 id1 id2 = popcount (field3 p id2) * 6 ∧ len p .v1Extended id1 id2 = popcount (field3 p id2) * 6 :=
  ⟨if_pos h, if_pos h⟩

theorem len_of_select_set {p : Config} {id1 : Byte} (h : id1.getLsbD p.v1FselBit = true) (id2 : Byte) :
    len p .v1 id1 id2 = popcount (field6 p id2) * 6 ∧ len p .v1Extended id1 id2 = lenV1XF1 (field6 p id2) :=
  have hne : ¬ id1.getLsbD p.v1FselBit = false := by rw [h]; exact Bool.noConfusion
  ⟨if_neg hne, if_neg hne⟩

/-- The V1 row of a header's own function-select returns the length that LEN computes. -/
theorem exec_rowV1 (id1 id2 : Byte) (s : State) :
    exec (if functionSelect s.config .v1 id1 id2 then .lenV1F1 id1 id2 else .lenV1F0 id1 id2) s =
      .next (s.returns (.length (len s.config .v1 id1 id2))) := by
  cases h : functionSelect s.config .v1 id1 id2 with
  | false => rw [(len_of_select_clear h id2).1]; rfl
  | true => rw [(len_of_select_set h id2).1]; rfl

/-- The V1Extended row of a header's own function-select returns the length that LEN computes. -/
theorem exec_rowV1Extended (id1 id2 : Byte) (s : State) :
    exec (if functionSelect s.config .v1Extended id1 id2 then .lenV1xF1 id1 id2 else .lenV1xF0 id1 id2) s =
      .next (s.returns (.length (len s.config .v1Extended id1 id2))) := by
  cases h : functionSelect s.config .v1Extended id1 id2 with
  | false => rw [(len_of_select_clear h id2).2]; rfl
  | true => rw [(len_of_select_set h id2).2]; rfl

/-- The row of a header is what its word decodes to, and returns the length LEN computes. -/
theorem exists_decoded_row {s : State} {w : BitVec 2} {v : Version} (hw : Version.ofCode s.config w = some v)
    (id1 id2 : Byte) :
    ∃ i, decode s.config (.header (headerWord w id1 id2)) = .ok i ∧
      exec i s = .next (s.returns (.length (len s.config v id1 id2))) := by
  cases v with
  | v1 => exact ⟨_, decodeLen_of_v1 hw id1 id2, exec_rowV1 id1 id2 s⟩
  | v1Extended => exact ⟨_, decodeLen_of_v1Extended hw id1 id2, exec_rowV1Extended id1 id2 s⟩
  | v2 => exact ⟨_, decodeLen_of_v2 hw id1 id2, exec_rowV2 rfl rfl w s⟩

theorem exec_len_of_version {s : State} {w : BitVec 2} {v : Version} (hw : Version.ofCode s.config w = some v)
    (id1 id2 : Byte) : exec (.len w id1 id2) s = .next (s.returns (.length (len s.config v id1 id2))) := by
  simp only [exec, execLen, hw]

theorem exec_len_reserved {s : State} {w : BitVec 2} (hw : Version.ofCode s.config w = none) (id1 id2 : Byte) :
    exec (.len w id1 id2) s = .refused .reservedVersion := by
  simp only [exec, execLen, hw]

/-- Settles O23: LEN and the decoded row return the same length. -/
theorem lengthDispatchAgreesWithRows : Obligations.LengthDispatchAgreesWithRows := by
  intro w id1 id2 s
  refine ⟨fun v hw => ?_, fun hw => exec_len_reserved hw id1 id2⟩
  obtain ⟨i, hdecode, hrow⟩ := exists_decoded_row hw id1 id2
  exact ⟨i, hdecode, (exec_len_of_version hw id1 id2).trans hrow.symm, hrow⟩

/-! Ranges (43 R144). -/

theorem lenV1XF1_field6_range (p : Config) (id2 : Byte) :
    2 ≤ lenV1XF1 (field6 p id2) ∧ lenV1XF1 (field6 p id2) ≤ 32 := by
  rw [lenV1XF1_field6]
  omega

/-- Settles O24: V2 by its table, V1 and V1Extended by their function-select and the widths of the fields. -/
theorem lengthRangeAndParity : Obligations.LengthRangeAndParity := by
  intro p id1 id2
  have h3 := popcount_le (field3 p id2)
  have h6 := popcount_le (field6 p id2)
  obtain ⟨hlow, hhigh⟩ := lenV1XF1_field6_range p id2
  obtain ⟨hmax, heven⟩ := len_le_even p .v2 id1 id2
  cases hselect : id1.getLsbD p.v1FselBit with
  | false =>
    obtain ⟨hv1, hv1x⟩ := len_of_select_clear hselect id2
    exact ⟨by omega, by omega, hmax, heven, fun _ => hv1.trans hv1x.symm, nofun⟩
  | true =>
    obtain ⟨hv1, hv1x⟩ := len_of_select_set hselect id2
    exact ⟨by omega, by omega, hmax, heven, nofun, fun _ => by omega⟩

end Sys2Proof.Machine
end

section
/-! PROOFS, family 44_crc.md: CRC_ADD as a map of the register and the byte. -/

namespace Sys2Proof.Machine

/-! One turn of the loop (44 R151). -/

/-- What a turn adds to the shifted register, by whether the two top bits differ. -/
def crcFeedback (p : Config) (differ : Bool) : Word := if differ then p.crcPoly else 0

theorem crcFeedback_xor (p : Config) (x y : Bool) :
    crcFeedback p (x ^^ y) = crcFeedback p x ^^^ crcFeedback p y := by
  cases x <;> cases y <;> simp [crcFeedback]

theorem crcBit_eq (p : Config) (c : Word) (b : Byte) :
    crcBit p c b = c <<< 1 ^^^ crcFeedback p (c.getLsbD 15 ^^ b.getLsbD 7) := by
  rw [crcBit, Bool.bne_eq_xor]
  cases c.getLsbD 15 ^^ b.getLsbD 7 <;> simp [crcFeedback]

theorem crcBit_xor (p : Config) (c c' : Word) (b b' : Byte) :
    crcBit p (c ^^^ c') (b ^^^ b') = crcBit p c b ^^^ crcBit p c' b' := by
  have hdiffer : ((c ^^^ c').getLsbD 15 ^^ (b ^^^ b').getLsbD 7) =
      ((c.getLsbD 15 ^^ b.getLsbD 7) ^^ (c'.getLsbD 15 ^^ b'.getLsbD 7)) := by
    simp only [BitVec.getLsbD_xor, Bool.xor_assoc, Bool.xor_left_comm]
  rw [crcBit_eq, crcBit_eq, crcBit_eq, hdiffer, crcFeedback_xor, BitVec.shiftLeft_xor_distrib]
  ac_rfl

/-- Under a polynomial with constant term 1 the lowest bit of the register tells whether the polynomial was added. -/
theorem crcBit_getLsbD_zero {p : Config} (hp : p.crcPoly.getLsbD 0 = true) (c : Word) (b : Byte) :
    (crcBit p c b).getLsbD 0 = (c.getLsbD 15 ^^ b.getLsbD 7) := by
  rw [crcBit_eq]
  cases c.getLsbD 15 ^^ b.getLsbD 7 <;> simp [crcFeedback, hp]

/-- A register is its top bit and what a turn shifts on. -/
theorem word_eq_of_top_of_shift {c c' : Word} (htop : c.getLsbD 15 = c'.getLsbD 15) (hshift : c <<< 1 = c' <<< 1) :
    c = c' := by
  refine BitVec.eq_of_getLsbD_eq fun i hi => ?_
  rcases Nat.lt_or_eq_of_le (Nat.le_of_lt_succ hi) with hlow | rfl
  · have hbit := congrArg (·.getLsbD (i + 1)) hshift
    simpa [-BitVec.getLsbD_eq_getElem, BitVec.getLsbD_shiftLeft, Nat.succ_lt_succ hlow] using hbit
  · exact htop

/-- A turn is undone from its lowest bit, which gives the top bit that was shifted out. -/
theorem crcBit_injective {p : Config} (hp : p.crcPoly.getLsbD 0 = true) (b : Byte) :
    Function.Injective fun c => crcBit p c b := by
  intro c c' (h : crcBit p c b = crcBit p c' b)
  have htop : c.getLsbD 15 = c'.getLsbD 15 := by
    have hlow := congrArg (·.getLsbD 0) h
    simpa only [crcBit_getLsbD_zero hp, Bool.xor_left_inj] using hlow
  rw [crcBit_eq, crcBit_eq, htop, BitVec.xor_left_inj] at h
  exact word_eq_of_top_of_shift htop h

/-! The whole loop (44 R151). -/

theorem crcBits_xor (p : Config) (n : Nat) (c c' : Word) (b b' : Byte) :
    crcBits p n (c ^^^ c') (b ^^^ b') = crcBits p n c b ^^^ crcBits p n c' b' := by
  induction n generalizing c c' b b' with
  | zero => rfl
  | succ n ih => simp only [crcBits, crcBit_xor, BitVec.shiftLeft_xor_distrib, ih]

theorem crcBits_injective {p : Config} (hp : p.crcPoly.getLsbD 0 = true) (n : Nat) (b : Byte) :
    Function.Injective fun c => crcBits p n c b := by
  induction n generalizing b with
  | zero => exact Function.injective_id
  | succ n ih => exact (ih (b <<< 1)).comp (crcBit_injective hp b)

/-- Settles O28: each turn of the loop is linear, and injective under a constant term 1; the register is finite. -/
theorem crcAddLinearBijective : Obligations.CrcAddLinearBijective := fun p =>
  ⟨crcBits_xor p 8, fun hp b => Finite.injective_iff_bijective.1 (crcBits_injective hp 8 b)⟩

end Sys2Proof.Machine
end

section
/-! PROOFS, family 44_crc.md: the operations on the CRC registers. -/

namespace Sys2Proof.Machine

/-! CRC.ABSORB (44 R152). -/

theorem exec_crcAbsorbV1 (b : Byte) (s : State) :
    exec (.crcAbsorbV1 b) s = .next { s with crc := crcAdd s.config s.crc b } := rfl

/-- The first byte of a pair is held. -/
theorem exec_crcAbsorbV2_first {s : State} (hpar : s.crcPar = false) (b : Byte) :
    exec (.crcAbsorbV2 b) s = .next { s with crcHold := b, crcPar := true } := by
  simp [exec, execCrcAbsorbV2, State.absorbPair, hpar]

/-- The second byte of a pair is added, then the held one. -/
theorem exec_crcAbsorbV2_second {s : State} (hpar : s.crcPar = true) (b : Byte) :
    exec (.crcAbsorbV2 b) s =
      .next { s with crc := crcAdd s.config (crcAdd s.config s.crc b) s.crcHold, crcPar := false } := by
  simp [exec, execCrcAbsorbV2, State.absorbPair, hpar]

/-- Settles O26: V2 by the two phases of a pair. -/
theorem crcAbsorbBothArms : Obligations.CrcAbsorbBothArms := fun s b =>
  ⟨exec_crcAbsorbV1 b s, fun hpar => exec_crcAbsorbV2_first hpar b, fun hpar => exec_crcAbsorbV2_second hpar b⟩

/-! Absorbing bytes one after another (44 R152, R155). -/

theorem execAll_cons_of_next {i : Instr} {s t : State} (h : exec i s = .next t) (rest : List Instr) :
    execAll (i :: rest) s = execAll rest t := by
  rw [execAll, h]

theorem execAll_crcAbsorbV1 (bytes : List Byte) (s : State) :
    execAll (bytes.map .crcAbsorbV1) s = .next { s with crc := bytes.foldl (crcAdd s.config) s.crc } := by
  induction bytes generalizing s with
  | nil => rfl
  | cons b bytes ih => rw [List.map_cons, execAll_cons_of_next (exec_crcAbsorbV1 b s), ih]; rfl

/-- A whole pair adds its second byte, then its first, and ends where the next pair starts. -/
theorem execAll_crcAbsorbV2_pair {s : State} (hpar : s.crcPar = false) (a b : Byte) (rest : List Instr) :
    execAll (.crcAbsorbV2 a :: .crcAbsorbV2 b :: rest) s =
      execAll rest { s with crc := crcAdd s.config (crcAdd s.config s.crc b) a, crcHold := a } := by
  rw [execAll_cons_of_next (exec_crcAbsorbV2_first hpar a), execAll_cons_of_next (exec_crcAbsorbV2_second rfl b),
    ← hpar]

/-- An even number of bytes from the start of a pair, taken pair by pair. -/
theorem execAll_crcAbsorbV2 {bytes : List Byte} (heven : bytes.length % 2 = 0) {s : State} (hpar : s.crcPar = false) :
    ∃ hold, execAll (bytes.map .crcAbsorbV2) s =
      .next { s with crc := (pairOrder bytes).foldl (crcAdd s.config) s.crc, crcHold := hold } := by
  induction bytes using pairOrder.induct generalizing s with
  | case1 a b rest ih =>
    have hrest : rest.length % 2 = 0 := by simpa only [List.length_cons, Nat.add_assoc, Nat.add_mod_right] using heven
    rw [List.map_cons, List.map_cons, execAll_crcAbsorbV2_pair hpar]
    exact ih hrest hpar
  | case2 a => cases heven
  | case3 => exact ⟨s.crcHold, rfl⟩

/-- Settles O29: V1 byte by byte, V2 pair by pair. -/
theorem crcAbsorbsInPairs : Obligations.CrcAbsorbsInPairs := fun s bytes =>
  ⟨execAll_crcAbsorbV1 bytes s, fun hpar heven => execAll_crcAbsorbV2 heven hpar⟩

/-! CRC.RESET, CRC.RESULT, CRC.RXCHECK and CRC.ADD (44 R150, R151, R153, R154). -/

/-- Settles O25: CRC.RXCHECK reads `VERSION` for the order of the two received bytes. -/
theorem crcResetResultCheck : Obligations.CrcResetResultCheck :=
  fun _ _ => ⟨rfl, rfl, fun _ hv => withVersion_of_protocol hv _⟩

theorem exec_crcAdd (c : Word) (b : Byte) (s : State) :
    exec (.crcAdd c b) s = .next { s with result := .crc (crcAdd s.config c b) } := rfl

/-- Settles O27: CRC.ADD writes `result` only; each listed value is a closed run of the loop. -/
theorem crcAddExamples : Obligations.CrcAddExamples :=
  ⟨exec_crcAdd, by decide, by decide, by decide, by decide, by decide, by decide, by decide, by decide,
    by decide +kernel⟩

end Sys2Proof.Machine
end

section
/-! PROOFS, family 45_ack_policy.md: the enable of a node, and the policy of each version. -/

namespace Sys2Proof.Machine

/-! The node address (45 R160). -/

/-- The upper six bits of id1, extended by zeros, are id1 shifted down by 2: above them the shift brings zeros in. -/
theorem zeroExtend_upperSix (id1 : Byte) : (id1.extractLsb' 2 6).zeroExtend 8 = id1 >>> 2 := by
  apply BitVec.eq_of_toNat_eq
  have hbyte : id1.toNat < 256 := id1.isLt
  have hsix : id1.toNat >>> 2 < 64 := by rw [Nat.shiftRight_eq_div_pow]; omega
  simp only [BitVec.truncate_eq_setWidth, BitVec.toNat_setWidth, BitVec.extractLsb'_toNat, BitVec.toNat_ushiftRight]
  omega

theorem nodeAddress_v1 (id1 : Byte) : nodeAddress .v1 id1 = id1 >>> 2 := zeroExtend_upperSix id1

theorem nodeAddress_v1Extended (id1 : Byte) : nodeAddress .v1Extended id1 = id1 >>> 2 := zeroExtend_upperSix id1

/-! The operations write `result` only (45 R160 to R162). -/

theorem exec_ackEnabled (node : Byte) (s : State) :
    exec (.ackEnabled node) s = .next { s with result := .enabled (ackEnabled s node) } := rfl

theorem exec_ackpolV1 (id1 id2 : Byte) (s : State) :
    exec (.ackpolV1 id1 id2) s = .next
      { s with
        result := .ackPolicy
          (ackEnabled s (id1 >>> 2) && (id1.getLsbD s.config.v1DirBit == s.config.dirAckLevel.v1))
          s.config.ackFixed } := by
  rw [← nodeAddress_v1]
  rfl

theorem exec_ackpolV1x (id1 id2 : Byte) (s : State) :
    exec (.ackpolV1x id1 id2) s = .next
      { s with
        result := .ackPolicy
          (ackEnabled s (id1 >>> 2) && (id1.getLsbD s.config.v1DirBit == s.config.dirAckLevel.v1Extended))
          s.config.ackFixed } := by
  rw [← nodeAddress_v1Extended]
  rfl

/-- In V2 id1 is the node address itself. -/
theorem exec_ackpolV2 (id1 id2 : Byte) (s : State) :
    exec (.ackpolV2 id1 id2) s = .next
      { s with
        result := .ackPolicy (ackEnabled s id1 && (id2.getLsbD s.config.v2DirBit == s.config.dirAckLevel.v2))
          s.ackValue } := rfl

/-- Settles O30: the enable of the node and the three arms; V1 and V1Extended differ in their level only. -/
theorem ackPolicyArms : Obligations.AckPolicyArms := fun s id1 id2 node =>
  ⟨exec_ackEnabled node s, exec_ackpolV1 id1 id2 s, exec_ackpolV1x id1 id2 s, exec_ackpolV2 id1 id2 s⟩

end Sys2Proof.Machine
end

section
/-! PROOFS, family 60_exceptions.md: no operation faults or is refused under a legal configuration, and what the host
reads. -/

namespace Sys2Proof.Machine

/-! Operations that answer a next state (60 R170). -/

/-- The outcome is a next state: no fault and no refusal. -/
def Completes (o : Outcome) : Prop := ∃ t, o = .next t

theorem legalConfig_iff {s : State} : s.legalConfig = true ↔ s.protocol ≠ none ∧ 2 ≤ s.spb := by
  simp [State.legalConfig, Option.isSome_iff_ne_none]

theorem legalConfig_atCursor (s : State) (c : Cursor) : (s.atCursor c).legalConfig = s.legalConfig := rfl

theorem withVersion_completes {s : State} {k : Version → Outcome} (hl : s.legalConfig = true)
    (hk : ∀ v, Completes (k v)) : Completes (s.withVersion k) := by
  obtain ⟨hp, -⟩ := legalConfig_iff.1 hl
  obtain ⟨v, hv⟩ := Option.ne_none_iff_exists'.1 hp
  rw [withVersion_of_protocol hv]
  exact hk v

theorem withTiming_completes {s : State} {k : Version → Nat → Outcome} (hl : s.legalConfig = true)
    (hk : ∀ v, Completes (k v s.spb)) : Completes (s.withTiming k) := by
  obtain ⟨-, hs⟩ := legalConfig_iff.1 hl
  refine withVersion_completes hl fun v => ?_
  rw [if_pos hs]
  exact hk v

/-- A wire operation that runs out of samples answers the starved state; one that is done leaves the configuration
legal for what follows (20 R47). -/
theorem onWire_completes {α : Type} {s : State} {k : α → State → Outcome} (hl : s.legalConfig = true)
    (hk : ∀ a t, t.legalConfig = true → Completes (k a t)) (w : Wire α) : Completes (s.onWire w k) := by
  cases w with
  | done a c => exact hk a (s.atCursor c) ((legalConfig_atCursor s c).trans hl)
  | exhausted c => exact ⟨s.starve c, rfl⟩

theorem execBrkScan_completes {s : State} (hl : s.legalConfig = true) : Completes (execBrkScan s) :=
  withTiming_completes hl fun _ => onWire_completes hl (fun _ _ _ => ⟨_, rfl⟩) _

theorem execByteRead_completes {s : State} (hl : s.legalConfig = true) : Completes (execByteRead s) :=
  withTiming_completes hl fun _ => onWire_completes hl (fun _ _ _ => ⟨_, rfl⟩) _

theorem withBreak_completes {s : State} {k : BreakRec → State → Outcome} (hl : s.legalConfig = true)
    (hk : ∀ u t, Completes (k u t)) : Completes (s.withBreak k) := by
  unfold State.withBreak
  split
  · exact hk _ _
  · exact withTiming_completes hl fun _ => onWire_completes hl (fun u t _ => hk u t) _

/-- A break field in a byte state is MISSING_BYTE, which always completes. -/
theorem withByte_completes {s : State} {k : ByteRec → State → Outcome} (hl : s.legalConfig = true)
    (hk : ∀ r t, t.legalConfig = true → Completes (k r t)) : Completes (s.withByte k) := by
  refine withTiming_completes hl fun _ => onWire_completes hl (fun r t ht => ?_) _
  cases r with
  | byte r => exact hk r t ht
  | breakField f => exact ⟨t.enterMissingByte f, rfl⟩

theorem unitStep_completes {s : State} (hl : s.legalConfig = true) : Completes (unitStep s) := by
  unfold unitStep
  cases s.state with
  | noFrame | headerBreak => exact withBreak_completes hl fun _ _ => ⟨_, rfl⟩
  | crcByte1 | ackByte => exact withByte_completes hl fun _ _ _ => ⟨_, rfl⟩
  | headerId1 | headerId2 | instructionByte1 | instructionByte2 | dataByte | crcByte2 =>
    exact withByte_completes hl fun _ _ ht => withVersion_completes ht fun _ => ⟨_, rfl⟩

theorem execIter_completes {s : State} (hl : s.legalConfig = true) : Completes (execIter s) := by
  unfold execIter
  split
  · exact ⟨s, rfl⟩
  · exact ⟨s, rfl⟩
  · split
    · exact ⟨s.terminate .cancelled, rfl⟩
    · exact unitStep_completes hl

/-- START answers a next state whatever the configuration (42 R127). -/
theorem execSessionStart_completes (s : State) : Completes (execSessionStart s) := by
  by_cases hm : s.mode = .idle
  · cases hl : s.legalConfig with
    | true =>
      obtain ⟨hp, hs⟩ := legalConfig_iff.1 hl
      exact ⟨_, execSessionStart_of_legal hm hp hs⟩
    | false => exact ⟨s, execSessionStart_of_illegal hl⟩
  · exact ⟨s, execSessionStart_of_not_idle hm⟩

/-- Settles O38: by the operation. A legal `VERSION` and `SPB` serve the operations that read them, and a well-formed
LEN names a version. -/
theorem everyOperationCompletes : Obligations.EveryOperationCompletes := by
  intro i s hwf hp hs
  have hl : s.legalConfig = true := legalConfig_iff.2 ⟨hp, hs⟩
  change Completes (exec i s)
  cases i with
  | iter => exact execIter_completes hl
  | brkScan => exact execBrkScan_completes hl
  | byteRead => exact execByteRead_completes hl
  | stHeaderid1 | stHeaderid2 | stInstr1 | stInstr2 | stData | stCrc2 | crcRxcheck =>
    exact withVersion_completes hl fun _ => ⟨_, rfl⟩
  | sessionStart => exact execSessionStart_completes s
  | len w id1 id2 =>
    obtain ⟨v, hw⟩ := Option.isSome_iff_exists.1 hwf
    exact ⟨_, exec_len_of_version hw id1 id2⟩
  | stNoframe | stHeaderbreak | stCrc1 | stAck | missingByte | sessionCancel | sessionExhaust | instrV2
  | lenV2F0C0 | lenV2F0C1 | lenV2F0C2 | lenV2F0C3 | lenV2F0C4 | lenV2F0C5 | lenV2F0C6 | lenV2F0C7
  | lenV2F1C0 | lenV2F1C1 | lenV2F1C2 | lenV2F1C3 | lenV2F1C4 | lenV2F1C5 | lenV2F1C6 | lenV2F1C7
  | lenV1F0 | lenV1xF0 | lenV1F1 | lenV1xF1 | crcReset | crcAdd | crcAbsorbV1 | crcAbsorbV2 | crcResult
  | ackpolV1 | ackpolV1x | ackpolV2 | ackEnabled => exact ⟨_, rfl⟩

/-! Host reads (60 R184, R187). -/

theorem readable_of_not_run {s : State} (hm : s.mode = .idle ∨ s.mode = .done) (n : Nat) : s.readable n = some n := by
  rcases hm with hm | hm <;> rw [State.readable, hm]

theorem readable_of_run {s : State} (hm : s.mode = .run) (n : Nat) : s.readable n = none := by
  rw [State.readable, hm]

theorem readablePending_of_pending {s : State} (hp : s.pendingBreak = true) (n : Nat) :
    s.readablePending n = s.readable n := if_pos hp

theorem readablePending_of_clear {s : State} (hp : s.pendingBreak = false) (n : Nat) : s.readablePending n = none := by
  rw [State.readablePending, hp, if_neg Bool.false_ne_true]

theorem readablePending_of_run {s : State} (hm : s.mode = .run) (n : Nat) : s.readablePending n = none := by
  cases hp : s.pendingBreak with
  | true => rw [readablePending_of_pending hp, readable_of_run hm]
  | false => exact readablePending_of_clear hp n

theorem NodeEntry.toNat_toByte (e : NodeEntry) : e.toByte.toNat = 2 * e.present.toNat + e.enable.toNat := by
  obtain ⟨present, enable⟩ := e
  cases present <;> cases enable <;> rfl

theorem Mode.toNat_code (m : Mode) : m.code.toNat = match m with | .idle => 0 | .run => 1 | .done => 2 := by
  cases m <;> rfl

theorem DoneCause.toNat_code (c : DoneCause) : c.code.toNat = match c with | .cancelled => 0 | .exhausted => 1 := by
  cases c <;> rfl

/-- Settles O34: control registers and `STATUS` answer by their codes, a data register by `State.readable`, the break
latch by `State.readablePending`. -/
theorem hostReadsByMode : Obligations.HostReadsByMode := by
  intro s
  refine ⟨fun _ => rfl, ⟨rfl, rfl, rfl, rfl, fun a => congrArg some (nodeEntry s.nodeAck a).toNat_toByte,
    congrArg some s.mode.toNat_code, congrArg some s.doneCause.toNat_code⟩, fun hm => ?_, fun hm => ?_⟩
  · have hread := readable_of_not_run hm
    have hpending : s.pendingBreak = true → ∀ n, s.readablePending n = some n := fun hp n =>
      (readablePending_of_pending hp n).trans (hread n)
    refine ⟨hread _, hread _, hread _, hread _, hread _, hread _, hread _, hread _, hread _, hread _, hread _, hread _,
      hread _, hread _, hread _, fun hp => ?_, fun hp => ?_⟩
    · exact ⟨hpending hp _, hpending hp _, hpending hp _, hpending hp _⟩
    · simp [hostRead, readablePending_of_clear hp]
  · simp [hostRead, readable_of_run hm, readablePending_of_run hm]

end Sys2Proof.Machine
end

section
/-! PROOFS, family 70_reset_and_hazards.md: a reset request in any mode. -/

namespace Sys2Proof.Machine

@[simp] theorem State.resetFramer_mode (s : State) : s.resetFramer.mode = .idle := rfl

/-- The request is taken from the queue before the reset, which keeps the rest of it (70 R190). -/
theorem step_of_reset {s : State} {rest : List HostReq} (h : s.inbox = .reset :: rest) :
    step s = .next ({ s with inbox := rest } : State).resetFramer := by
  obtain ⟨-, -, -, hostAction⟩ := stepTakesOldestAction s rest
  exact hostAction .reset h nofun nofun

/-- A reset framer waits in IDLE for START (70 R190). -/
theorem execIter_resetFramer (s : State) : execIter s.resetFramer = .next s.resetFramer :=
  execIter_of_not_run (by simp)

/-- The override table of a reset framer has no entry (10 R33). -/
theorem nodeEntry_resetFramer (s : State) (a : Byte) : (nodeEntry s.resetFramer.nodeAck a).present = false :=
  nodeEntry_nil a

/-- Settles O2: the step goes to `State.resetFramer`, whose fields are the constants of `State.resetWith` and the
environment of the state before. -/
theorem resetRequestInAnyMode : Obligations.ResetRequestInAnyMode := by
  intro s rest h
  have noEntry := nodeEntry_resetFramer { s with inbox := rest }
  have idles := execIter_resetFramer { s with inbox := rest }
  exact ⟨_, step_of_reset h, rfl, rfl, rfl, rfl, rfl, rfl, rfl, rfl, rfl, rfl, rfl, rfl, rfl, rfl, rfl, rfl, rfl, rfl,
    rfl, rfl, rfl, noEntry, rfl, rfl, rfl, rfl, idles⟩

end Sys2Proof.Machine
end
